-- ==== Sys2Proof/Word.lean ====
section
/-! DEFINITION. The word types of the ZT512 and the index types of its units (R1 to R4, R8). -/

namespace Sys2Proof

/-- A register or parameter word (R8: every register is 32 bits wide). -/
abbrev Word := BitVec 32

/-- A byte of HBM or host memory. -/
abbrev Byte := BitVec 8

/-- Bench b, 0 to 63 (R1). -/
abbrev BenchIx := Fin 64
/-- Lane l of a bench, 0 to 7 (R1). -/
abbrev LaneIx := Fin 8
/-- Channel c, 0 to 511 (R1). -/
abbrev ChanIx := Fin 512
/-- Gang g, 0 to 63 (R2). -/
abbrev GangIx := Fin 64
/-- Site s, 0 to 127 (R2). -/
abbrev SiteIx := Fin 128
/-- Host port or partition p, 0 to 3 (R2). -/
abbrev PortIx := Fin 4
/-- Acquisition unit u, 0 to 31 (R3). -/
abbrev UnitIx := Fin 32
/-- Repair analysis engine e, 0 to 63 (R3). -/
abbrev EngIx := Fin 64
/-- Window monitor m, 0 to 63 (R3). -/
abbrev MonIx := Fin 64
/-- Fault source, 0 to 1,359 (R340). -/
abbrev SrcIx := Fin 1360

/-- A sparse table: the entries that differ from what an unlisted index reads as, by rising index. -/
abbrev Tab (α : Type) := List (Nat × α)

end Sys2Proof
end

