-- ==== Sys2Proof/Types.lean ====
section
/-! DEFINITION. The types of the commands' operands and of a structure image's decoded sections (R242); State uses the same section types for what a commit loads. -/

namespace Sys2Proof

/-- Who makes a register access: a PCIe port, or the management port MSPI (R277, R287). -/
inductive Who where
  | port (p : PortIx)
  | mspi
  deriving DecidableEq, Repr

/-- The voltages at one lane's pin at the compare instants of one vector, in order of time: one sample at C_OPEN in edge-strobe
mode, the samples of the window in window mode (R45, R77). On the second lane of a differential pair the instants are those of
the first (R46). -/
structure PinSample where
  bench : BenchIx
  lane  : LaneIx
  slot  : Fin 4
  volts : List Word
  deriving DecidableEq, Repr

/-- One direction of a CAL job's sweep on one lane (R88): at each strobe position, in how many of the 256 repetitions the
sampled voltage lay above VCL and above VCH, for the 500 coarse positions, and above its threshold for the 6 positions of the
bisection of each crossing. -/
structure TdrEdge where
  coarse : List (Nat × Nat)
  fine1  : List Nat
  fine2  : List Nat
  deriving DecidableEq, Repr

/-- One lane's sweep of a CAL job, with rising and with falling steps (R88). -/
structure TdrSweep where
  bench   : BenchIx
  lane    : LaneIx
  rising  : TdrEdge
  falling : TdrEdge
  deriving DecidableEq, Repr

/-- A Schmitt input of the digital die (R368). -/
inductive InPin where
  | trigIn (i : Fin 4)
  | guy (i : Fin 8)
  | sync
  | calEn
  deriving DecidableEq, Repr

/-- What a quiet period belongs to: a site, or a channel that no site holds (R341, R352). -/
inductive QuietOf where
  | site (s : SiteIx)
  | chan (c : ChanIx)
  deriving DecidableEq, Repr

/-- A port identity of the timing network: clock identity and port number (R303), with the domain of the message. -/
structure PtpId where
  clock  : BitVec 64
  port   : BitVec 16
  domain : BitVec 8
  deriving DecidableEq, Repr

/-- An Announce message: its source and the announce interval that it states, as a power of two (R303). -/
structure AnnounceMsg where
  id       : PtpId
  interval : Fin 16
  deriving DecidableEq, Repr

/-- What ends a read frame of the management port: CRC_H, and where the select rises before the frame is over, the number of
device words clocked out by then (R283, R289). -/
structure ReadEnd where
  crc : Byte
  cut : Option Nat := none
  deriving DecidableEq, Repr

/-- An ECDSA signature (R378). -/
structure Signature where
  r : BitVec 384
  s : BitVec 384
  deriving DecidableEq, Repr

/-- The lanes of a bench that a site takes: all eight, or a sub-site of lanes 0 to 3 or 4 to 7 (R15). -/
inductive SiteLanes where
  | all | lo | hi
  deriving DecidableEq, Repr

/-- STRUCTURE: one gang, its benches in ascending order, its beat width B (1, 2 or 4) and its partition (R14, R17). -/
structure GangCfg where
  benches   : List Nat := []
  bw        : Nat := 1
  partition : Nat := 0
  deriving DecidableEq, Repr

/-- STRUCTURE: one site (R15), its gang, benches and lanes; FAULT: its recovery policy (R352); STREAMS: its under-run policy,
true for ABORT_SITE (R170). -/
structure SiteCfg where
  gang    : Nat := 0
  benches : List Nat := []
  lanes   : SiteLanes := .all
  resume  : Bool := false
  abort   : Bool := false
  deriving DecidableEq, Repr

/-- HBM_MAP: one region (R34); place 0 or 1 is that stack, 2 is interleaved. -/
structure Region where
  partition : Nat := 0
  place     : Nat := 0
  base      : Nat := 0
  size      : Nat := 0
  deriving DecidableEq, Repr

/-- One landing of a stream (R160). -/
structure Landing where
  pos     : Nat := 0
  len     : Nat := 0
  loopBuf : Bool := false
  deriving DecidableEq, Repr

/-- STREAMS: one bench's stream (R150 to R161). fmt 0 NONE, 1 2-bit, 2 4-bit; sizes and positions in bytes. -/
structure StreamCfg where
  fmt      : Nat := 0
  hostFed  : Bool := false
  base     : Nat := 0
  size     : Nat := 0
  retain   : Nat := 0
  lowater  : Word := 0
  prefill  : Nat := 0
  landings : Tab Landing := []
  deriving DecidableEq, Repr

/-- SEQ: what the image gives a gang's sequencers (R117, R128, R262). iomask is by 16 × bench + i. -/
structure SeqCfg where
  entry  : Nat := 0
  evtEn  : BitVec 8 := 0
  evtVec : Tab Nat := []
  kaNano : Nat := 0
  lreg   : Tab Word := []
  iomask : Tab (BitVec 8) := []
  guard  : Tab Nat := []
  deriving DecidableEq, Repr

/-- The registers of R129 and the configuration registers of R148 of one APG, with the words as the registers read.
Rows of the scramble matrix and entries of the column table that are not listed are those of the identity. -/
structure ApgRegs where
  x : Word := 0
  xb : Word := 0
  xi : Word := 0
  y : Word := 0
  yb : Word := 0
  yi : Word := 0
  z : Word := 0
  d : Word := 0
  db : Word := 0
  c : Word := 0
  xLo : Word := 0
  xHi : Word := 0
  yLo : Word := 0
  yHi : Word := 0
  cfg : Word := 0
  topo : Word := 0
  topoIo : Word := 0
  scr : Tab Word := []
  deriving DecidableEq, Repr

/-- APG: the registers, column table (by entry) and presets (by word, 16 × preset + word) of a gang. -/
structure ApgCfg where
  regs    : ApgRegs := {}
  clut    : Tab Word := []
  presets : Tab Word := []
  deriving DecidableEq, Repr

/-- FAIL: the log and bitmap of one site (R176 to R181, R191). -/
structure FailCfg where
  merge   : Bool := false
  sample  : Bool := false
  iok     : Nat := 0
  logSize : Nat := 0
  logBase : Nat := 0
  hasBm   : Bool := false
  bmBase  : Nat := 0
  xLo : Nat := 0
  xHi : Nat := 0
  yLo : Nat := 0
  yHi : Nat := 0
  zLo : Nat := 0
  zHi : Nat := 0
  deriving DecidableEq, Repr

/-- REPAIR: one engine's model (R183, R192). -/
structure RepairCfg where
  assigned : Bool := false
  auto     : Bool := false
  colIo    : Bool := false
  site     : Nat := 0
  zr : Nat := 0
  xr : Nat := 0
  yr : Nat := 0
  sr : Nat := 0
  sc : Nat := 0
  nb : Nat := 0
  deriving DecidableEq, Repr

/-- ACQ: one unit's buffer and rate (R209, R210, R213) and its partition. -/
structure AcqCfg where
  partition : Nat := 0
  rate  : Nat := 0
  base  : Nat := 0
  slot  : Nat := 0
  nslot : Nat := 0
  deriving DecidableEq, Repr

/-- MONITOR: one monitor's assignment (R228, R230, R237). -/
structure MonAssign where
  partition : Nat := 0
  site      : Option Nat := none
  rampBench : Nat := 0
  react     : BitVec 3 := 0
  seqBenches : List Nat := []
  deriving DecidableEq, Repr

/-- FAULT: class escalations (by source), quiet periods, recovery limits and the reaction to GUY[6] (R342, R351, R354,
R320). -/
structure FaultCfg where
  cls     : Tab Nat := []
  quiet   : Tab Nat := []
  quietFt : Nat := 100000
  limUc   : Nat := 16
  limFt   : Nat := 4
  g6React : BitVec 2 := 0
  deriving DecidableEq, Repr

/-- PSPI: the frame table (by word, 64 × frame + word), select words and safe list (R291, R296, R298). -/
structure PspiCfg where
  table  : Tab Word := []
  selCfg : Tab Word := []
  selDly : Tab Word := []
  safe   : Tab Word := []
  deriving DecidableEq, Repr

/-- BUDGET STREAM record (R243), in bytes and bytes per second; d in ns. -/
structure BudgetStream where
  rc : Option Nat := none
  rh : Option Nat := none
  len : Option Nat := none
  d  : Nat := 20000
  br : Option Nat := none
  deriving DecidableEq, Repr

/-- BUDGET SITE record (R243): R_F in bytes per second, T_D in ns. -/
structure BudgetSite where
  rf : Option Nat := none
  td : Option Nat := none
  deriving DecidableEq, Repr

/-- The decoded sections of a structure image (R242). Knater defines the internal layout of the sections; the spec does
not, so an image is modelled by what its sections fix. -/
structure Image where
  adminPort  : Nat := 0
  partPort   : Tab Nat := []
  gangs      : Tab GangCfg := []
  sites      : Tab SiteCfg := []
  benchPart  : Tab Nat := []
  enginePart : Tab Nat := []
  regions    : List Region := []
  streams    : Tab StreamCfg := []
  streamData : Tab (List Byte) := []
  micro      : Tab (List (BitVec 48)) := []
  nano       : Tab (List (BitVec 256)) := []
  lib        : Tab (Tab Word) := []
  slotLo     : Tab Word := []
  slotHi     : Tab Word := []
  chan       : Tab (Tab Word) := []
  seq        : Tab SeqCfg := []
  apg        : Tab ApgCfg := []
  fail       : Tab FailCfg := []
  repair     : Tab RepairCfg := []
  acq        : Tab AcqCfg := []
  routes     : Tab (List Nat) := []
  routeEn    : Tab Bool := []
  monitor    : Tab MonAssign := []
  cmpPart    : Tab Nat := []
  cmpEvt     : Tab (List Nat) := []
  fault      : FaultCfg := {}
  pspi       : PspiCfg := {}
  budStream  : Tab BudgetStream := []
  budSite    : Tab BudgetSite := []
  budFrame   : Tab Nat := []
  cooling    : Nat := 0
  mspiRo     : Bool := false
  deskew     : Option (Tab Word) := none
  deriving DecidableEq, Repr

/-- One entry of a container's section table (R241). -/
structure Section where
  type   : Nat
  flags  : Nat := 0
  word1  : Word := 0
  offset : Nat
  length : Nat
  word6  : Word := 0
  word7  : Word := 0
  deriving DecidableEq, Repr

/-- A Fjarg container (R241): its header and section table word by word, its encrypted payload, GCM tag and signature, and its
decoded sections. `zeros` lists the words of 0x05C to 0x0FF that are not zero, by offset. `payload` is every byte between the
section table and the GCM tag. `content` is what the decrypted sections decode to by their layouts (R242), or none with
`badType` the type code of the first section whose content does not decode. -/
structure Container where
  magic     : Word := 0x47524A46
  fmt       : Word := 0x00010000
  device    : Word := 0x5A540512
  steppings : Word := 3
  length    : Nat := 0
  nsect     : Word := 0
  keysel    : Word := 0
  imageId   : BitVec 384 := 0
  zeros     : List (Nat × Word) := []
  sections  : List Section := []
  iv        : BitVec 96 := 0
  payload   : List Byte := []
  gcmTag    : BitVec 128 := 0
  sigR      : BitVec 384 := 0
  sigS      : BitVec 384 := 0
  content   : Option Image := none
  badType   : Nat := 0
  deriving DecidableEq, Repr

end Sys2Proof
end

