-- ==== Sys2Proof/Syntax.lean ====
section
/-! DEFINITION. The commands of the ZT512: one constructor for each row of spec/opcode_table.json. -/

namespace Sys2Proof

/-- The commands. Each constructor's docstring names its row and the rule the row cites. -/
inductive Instr where
  /-- REGISTER_WRITE (R9). -/
  | registerWrite (w : Who) (addr : BitVec 24) (v : Word) (full : Bool)
  /-- COUNTER_SNAPSHOT_READ (R391). -/
  | counterSnapshotRead (w : Who) (addr : BitVec 24)
  /-- TIME_SNAPSHOT_READ (R301). -/
  | timeSnapshotRead (w : Who)
  /-- STORE_WINDOW_READ (R394). -/
  | storeWindowRead (w : Who) (addr : BitVec 24)
  /-- EPOCH (R23). -/
  | epoch
  /-- SYNC_EDGE (R314). -/
  | syncEdge
  /-- GANG_START (R25). -/
  | gangStart (g : GangIx)
  /-- NEXT (R103). -/
  | next (g : GangIx)
  /-- REPEAT (R104). -/
  | repeatBeat (g : GangIx)
  /-- LOOP_BEGIN (R105). -/
  | loopBegin (g : GangIx)
  /-- LOOP_END (R105). -/
  | loopEnd (g : GangIx)
  /-- JUMP (R103). -/
  | jump (g : GangIx)
  /-- JUMP_IF (R112). -/
  | jumpIf (g : GangIx)
  /-- HORIZON_STALL_END (R22). -/
  | horizonStallEnd (g : GangIx)
  /-- CALL (R106). -/
  | call (g : GangIx)
  /-- RETURN (R106). -/
  | returnOp (g : GangIx)
  /-- WAIT_TRIG (R107). -/
  | waitTrig (g : GangIx)
  /-- WAIT_TRIG_RELEASE (R107). -/
  | waitTrigRelease (g : GangIx)
  /-- WAIT_TRIG_TIMEOUT (R107). -/
  | waitTrigTimeout (g : GangIx)
  /-- WAIT_BEATS (R104). -/
  | waitBeats (g : GangIx)
  /-- HALT (R110). -/
  | halt (g : GangIx)
  /-- DRAIN_COMPLETE (R110). -/
  | drainComplete (g : GangIx)
  /-- SEG_OPEN (R161). -/
  | segOpen (g : GangIx)
  /-- GANG_SYNC (R108). -/
  | gangSync (g : GangIx)
  /-- GANG_SYNC_RELEASE (R108). -/
  | gangSyncRelease (g : GangIx)
  /-- PSPI_SEND (R109). -/
  | pspiSend (g : GangIx)
  /-- APG_LOAD (R130). -/
  | apgLoad (g : GangIx)
  /-- EVENT (R109). -/
  | eventOp (g : GangIx)
  /-- VECTOR_CYCLE_START (R96). -/
  | vectorCycleStart (g : GangIx)
  /-- KEEPALIVE_BEAT (R166). -/
  | keepaliveBeat (g : GangIx)
  /-- UNDERRUN_RESUME (R166). -/
  | underrunResume (g : GangIx)
  /-- RESULT_RETURN (R172). -/
  | resultReturn (g : GangIx) (samples : List PinSample)
  /-- LOG_ENTRY_WRITTEN (R180). -/
  | logEntryWritten (site : SiteIx)
  /-- FF_REARM (R175). -/
  | ffRearm (w : Who) (b : BenchIx) (v : Word)
  /-- STOP (R127). -/
  | seqStop (w : Who) (b : BenchIx) (v : Word)
  /-- DOORBELL (R120). -/
  | doorbell (w : Who) (b : BenchIx) (v : Word)
  /-- RELEASE (R57). -/
  | laneRelease (w : Who) (b : BenchIx) (v : Word)
  /-- BENCH_PE_DATA_WRITE (R66). -/
  | benchPeDataWrite (w : Who) (b : BenchIx) (v : Word)
  /-- BENCH_PE_DATA_READ (R68). -/
  | benchPeDataRead (w : Who) (b : BenchIx)
  /-- HV_MODE_SAFE_END (R44). -/
  | hvModeSafeEnd (b : BenchIx)
  /-- DISCHARGE_PHASE_END (R56). -/
  | dischargePhaseEnd (b : BenchIx)
  /-- CLAMP_ENTER (R50). -/
  | clampEnter (c : ChanIx)
  /-- ADC_RESULT (R53). -/
  | adcResult (c : ChanIx) (codes : List (BitVec 18))
  /-- BENCH_TMG_SLOT_WRITE (R82). -/
  | benchTmgSlotWrite (w : Who) (b : BenchIx) (hi : Bool) (v : Word)
  /-- BENCH_TMG_DATA_WRITE (R80). -/
  | benchTmgDataWrite (w : Who) (b : BenchIx) (v : Word)
  /-- BENCH_TMG_DATA_READ (R92). -/
  | benchTmgDataRead (w : Who) (b : BenchIx)
  /-- APG_CLUT_DATA_ACCESS (R149). -/
  | apgClutDataAccess (w : Who) (b : BenchIx) (wr : Option Word)
  /-- APG_PRE_DATA_ACCESS (R147). -/
  | apgPreDataAccess (w : Who) (b : BenchIx) (wr : Option Word)
  /-- BENCH_STRM_PROD_LO_WRITE (R157). -/
  | benchStrmProdLoWrite (w : Who) (b : BenchIx) (v : Word)
  /-- BENCH_STRM_PROD_HI_WRITE (R157). -/
  | benchStrmProdHiWrite (w : Who) (b : BenchIx) (v : Word)
  /-- REWIND (R158). -/
  | strmRewind (w : Who) (b : BenchIx) (v : Word)
  /-- EOS (R158). -/
  | strmEos (w : Who) (b : BenchIx) (v : Word)
  /-- BENCH_STRM_LND_DATA_READ (R160). -/
  | benchStrmLndDataRead (w : Who) (b : BenchIx)
  /-- RAE_SOL_DATA_READ (R190). -/
  | raeSolDataRead (w : Who) (e : EngIx)
  /-- ANALYSE (R188). -/
  | analyse (w : Who) (e : EngIx) (v : Word)
  /-- CLEAR (R188). -/
  | raeClear (w : Who) (e : EngIx) (v : Word)
  /-- SEARCH_DONE (R188). -/
  | searchDone (e : EngIx)
  /-- TRIG_IN_EDGE (R195). -/
  | trigInEdge (i : Fin 4) (rising : Bool)
  /-- GUY_TRIGGER_EDGE (R195). -/
  | guyTriggerEdge (i : Fin 4)
  /-- TRIGX_SWTRIG (R197). -/
  | trigxSwtrig (w : Who) (v : Word)
  /-- TRIG_OUT_END (R196). -/
  | trigOutEnd (out : Fin 8)
  /-- ACQ_ARM (R201). -/
  | acqArm (w : Who) (u : UnitIx) (v : Word)
  /-- ACQ_STOP (R211). -/
  | acqStop (w : Who) (u : UnitIx) (v : Word)
  /-- ACQ_START (R202). -/
  | acqStart (u : UnitIx)
  /-- ACQ_FRAME (R200). -/
  | acqFrame (u : UnitIx)
  /-- ACQ_HEADER_WRITTEN (R207). -/
  | acqHeaderWritten (u : UnitIx)
  /-- ACQ_RD_LO_WRITE (R212). -/
  | acqRdLoWrite (w : Who) (u : UnitIx) (v : Word)
  /-- ACQ_RD_HI_WRITE (R212). -/
  | acqRdHiWrite (w : Who) (u : UnitIx) (v : Word)
  /-- REF_CHECK (R214). -/
  | refCheck (diff : Word)
  /-- READBACK_START (R217). -/
  | readbackStart (w : Who) (p : PortIx) (v : Word)
  /-- READBACK_DONE (R217), with the main converter's raw codes. -/
  | readbackDone (codes : List (BitVec 24))
  /-- MET_READ (R222). -/
  | metRead (addr : BitVec 24) (n : Nat)
  /-- MET_WRITE (R222). -/
  | metWrite (addr : BitVec 24) (data : List Word) (crc : Byte)
  /-- OPEN (R223). -/
  | openSession (addr : BitVec 24) (crc : Byte)
  /-- CLOSE (R223). -/
  | closeSession (addr : BitVec 24) (data : List Word) (crc : Byte)
  /-- ABORT (R223). -/
  | abortSession (addr : BitVec 24) (crc : Byte)
  /-- MEASURE_FRAME (R222), with the main converter's raw codes. -/
  | measureFrame (addr : BitVec 24) (data : List Word) (codes : List (BitVec 24)) (crc : Byte)
  /-- MET_RESET (R215). -/
  | metReset (addr : BitVec 24) (crc : Byte)
  /-- CAL_EN_LOW (R223). -/
  | calEnLow
  /-- VMET_LOSS (R215). -/
  | vmetLoss
  /-- METROLOGY_RESET_DONE (R220). -/
  | metrologyResetDone
  /-- MIRROR_LOAD (R219). -/
  | mirrorLoad (wrong : List (Nat × Word))
  /-- MET_ANSWER_TIMEOUT (R364). -/
  | metAnswerTimeout
  /-- MON_ENABLE (R233). -/
  | monEnable (w : Who) (m : MonIx) (v : Word)
  /-- MON_SETTLE (R233). -/
  | monSettle (m : MonIx) (volts : Word)
  /-- MON_TRIP (R234). -/
  | monTrip (m : MonIx) (volts : Word)
  /-- MON_PERIOD_END (R235). -/
  | monPeriodEnd (m : MonIx)
  /-- MON_BLANK_END (R232). -/
  | monBlankEnd (m : MonIx)
  /-- MON_RAMP_START (R230). -/
  | monRampStart (w : Who) (m : MonIx) (v : Word)
  /-- MON_RAMP_STEP (R230). -/
  | monRampStep (m : MonIx)
  /-- LOAD (R245). -/
  | imgLoad (w : Who) (v : Word)
  /-- LOAD_COMPLETE (R245). -/
  | loadComplete (copied : Option Container)
  /-- CHECK (R246). -/
  | imgCheck (w : Who) (v : Word)
  /-- CHECK_COMPLETE (R246). -/
  | checkComplete
  /-- COMMIT (R254). -/
  | imgCommit (w : Who) (v : Word)
  /-- COMMIT_COMPLETE (R254). -/
  | commitComplete
  /-- DISCARD (R245). -/
  | imgDiscard (w : Who) (v : Word)
  /-- PUSH (R256). -/
  | stgPush (w : Who) (p : PortIx) (v : Word)
  /-- STAGING_CLEAR (R256). -/
  | stagingClear (w : Who) (p : PortIx) (v : Word)
  /-- APPLY_ARM (R258). -/
  | applyArm (p : PortIx) (tag : BitVec 16)
  /-- HOST_SQ_TAIL_WRITE (R267). -/
  | hostSqTailWrite (w : Who) (p : PortIx) (v : Word)
  /-- DESCRIPTOR_FETCH (R268). -/
  | descriptorFetch (p : PortIx) (words : List Word)
  /-- QUEUE_ENABLE (R267). -/
  | queueEnable (w : Who) (p : PortIx) (v : Word)
  /-- QUEUE_DISABLE (R269). -/
  | queueDisable (w : Who) (p : PortIx) (v : Word)
  /-- QUIESCE_DONE (R269). -/
  | quiesceDone (p : PortIx)
  /-- RUN_START (R272). -/
  | runStart (p : PortIx) (tag : BitVec 16)
  /-- RUN_STOP (R272). -/
  | runStop (p : PortIx) (tag : BitVec 16)
  /-- STREAM (R157). -/
  | streamJob (p : PortIx) (tag : BitVec 16) (data : Option (List Byte))
  /-- FETCH (R272). -/
  | fetchJob (p : PortIx) (tag : BitVec 16) (data : Option (List Byte))
  /-- MEASURE (R272). -/
  | measureJob (p : PortIx) (tag : BitVec 16) (ok : Bool)
  /-- CAL (R88). -/
  | calJob (p : PortIx) (tag : BitVec 16)
  /-- CAL_COMPLETE (R89). -/
  | calComplete (p : PortIx) (tag : BitVec 16) (sweeps : List TdrSweep)
  /-- APPLY (R258). -/
  | applyJob (p : PortIx) (tag : BitVec 16)
  /-- REPAIR_REPORT (R272). -/
  | repairReport (p : PortIx) (tag : BitVec 16) (ok : Bool)
  /-- SCHEDULE (R310). -/
  | scheduleJob (p : PortIx) (tag : BitVec 16)
  /-- FENCE (R35). -/
  | fenceJob (p : PortIx) (tag : BitVec 16)
  /-- JOB_COMPLETE (R274). -/
  | jobComplete (p : PortIx) (tag : BitVec 16)
  /-- APERTURE_READ (R266). -/
  | apertureRead (p : PortIx) (addr : BitVec 36) (len : Nat)
  /-- APERTURE_WRITE (R266). -/
  | apertureWrite (p : PortIx) (addr : BitVec 36) (data : List Byte)
  /-- PORT_LOSS (R279). -/
  | portLoss (p : PortIx)
  /-- LINK_UP (R263). -/
  | linkUp (p : PortIx) (width : BitVec 5) (speed : BitVec 4)
  /-- MSPI_READ (R282). -/
  | mspiRead (addr : BitVec 24) (cnt : BitVec 5) (last : ReadEnd)
  /-- MSPI_WRITE (R282). -/
  | mspiWrite (addr : BitVec 24) (data : List Word) (crc : Byte)
  /-- READ_INC (R282). -/
  | mspiReadInc (addr : BitVec 24) (cnt : BitVec 5) (last : ReadEnd)
  /-- WRITE_INC (R282). -/
  | mspiWriteInc (addr : BitVec 24) (data : List Word) (crc : Byte)
  /-- MSPI_STATUS_FRAME (R282). -/
  | mspiStatusFrame (addr : BitVec 24) (cnt : BitVec 5) (last : ReadEnd)
  /-- MSPI_FRAME_ABORT (R289). -/
  | mspiFrameAbort
  /-- MSPI_OVERCLOCK (R289). -/
  | mspiOverclock
  /-- SPIM_SEND (R293). -/
  | spimSend (w : Who) (v : Word)
  /-- PSPI_FRAME_START (R293). -/
  | pspiFrameStart
  /-- PSPI_FRAME_END (R295). -/
  | pspiFrameEnd (rx : List Word)
  /-- ANNOUNCE (R303). -/
  | announce (msg : AnnounceMsg)
  /-- ANNOUNCE_TIMEOUT (R303). -/
  | announceTimeout
  /-- PTP_SYNC (R304). -/
  | ptpSync (id : PtpId) (origin : Option Int) (corr : Int) (interval : Fin 9) (reqAfter : Nat)
  /-- FOLLOW_UP (R304). -/
  | followUp (id : PtpId) (origin : Int) (corr : Int)
  /-- DELAY_RESP (R304). -/
  | delayResp (id : PtpId) (t4 : Int) (corr : Int)
  /-- OFFSET_AGE_HOLDOVER (R308). -/
  | offsetAgeHoldover
  /-- STEP_ARM (R305). -/
  | stepArm (w : Who) (v : Word)
  /-- PPS_EDGE (R309). -/
  | ppsEdge
  /-- PPS_OUT (R309). -/
  | ppsOut
  /-- COMPARATOR_FIRE (R310). -/
  | comparatorFire (i : Fin 16)
  /-- GUY_AGREEMENT (R317). -/
  | guyAgreement
  /-- GUY_STROBE (R318). -/
  | guyStrobe
  /-- GUY_STROBE_EDGE (R318). -/
  | guyStrobeEdge
  /-- GUY_AGREE_TIMEOUT (R319). -/
  | guyAgreeTimeout
  /-- GUY_FAULT (R320). -/
  | guyFault
  /-- REFCLK_LOSS (R323). -/
  | refclkLoss
  /-- PLL_LOCK (R324). -/
  | pllLock
  /-- PLL_UNLOCK (R325). -/
  | pllUnlock
  /-- DLL_LOCK (R333). -/
  | dllLock (b : BenchIx)
  /-- DLL_UNLOCK (R326). -/
  | dllUnlock (b : BenchIx)
  /-- CLKOUT_ENABLE (R328). -/
  | clkoutEnable (w : Who) (i : Fin 8) (v : Word)
  /-- CLKOUT_DISABLE (R328). -/
  | clkoutDisable (w : Who) (i : Fin 8) (v : Word)
  /-- TARGET (R331). -/
  | pwrTarget (w : Who) (v : Word)
  /-- POWER_TRANSITION_DONE (R331). -/
  | powerTransitionDone (keyOk : Bool)
  /-- MAX_CLR (R339). -/
  | maxClr (w : Who) (v : Word)
  /-- WAKE_TIMER_FIRE (R332). -/
  | wakeTimerFire
  /-- WAKE (R333). -/
  | benchWake (w : Who) (b : BenchIx) (v : Word)
  /-- GATE (R333). -/
  | benchGate (w : Who) (b : BenchIx) (v : Word)
  /-- THERMAL_UPDATE (R336). -/
  | thermalUpdate (powers : List Word)
  /-- FAULT_DETECT (R343). -/
  | faultDetect (src : SrcIx)
  /-- RAIL_FAULT (R344). -/
  | railFault (src : SrcIx)
  /-- FAULT_SOURCE_DEASSERT (R351). -/
  | faultSourceDeassert (src : SrcIx)
  /-- QUIET_END (R352). -/
  | quietEnd (of : QuietOf)
  /-- REINIT_DONE (R352). -/
  | reinitDone (site : SiteIx)
  /-- SITE_RELEASE (R352). -/
  | siteRelease (site : SiteIx)
  /-- FT_EXIT (R354). -/
  | ftExit
  /-- CLR_FIRST (R346). -/
  | clrFirst (w : Who) (v : Word)
  /-- FT_RECOVER (R354). -/
  | ftRecover (w : Who) (v : Word)
  /-- REC_CLR (R357). -/
  | recClr (w : Who) (v : Word)
  /-- SITE_RECOVER (R352). -/
  | siteRecover (w : Who) (v : Word)
  /-- COLD_RESET (R358). -/
  | coldReset
  /-- COLD_STARTUP (R362). -/
  | coldStartup
  /-- FUSE_LOAD_DONE (R362). -/
  | fuseLoadDone (ok : Bool)
  /-- WARM_RESET (R359). -/
  | warmReset
  /-- WARM (R358). -/
  | warmWrite (w : Who) (v : Word)
  /-- WARM_STARTUP (R366). -/
  | warmStartup
  /-- PARTITION_RESET (R361). -/
  | partitionReset (w : Who) (v : Word)
  /-- BOOT (R365). -/
  | boot (header : Option (Word × Word))
  /-- INPUT_ARM (R368). -/
  | inputArm (pin : InPin) (high : Bool)
  /-- CW_SCAN (R370). -/
  | cwScan (codes : List (List (BitVec 18)))
  /-- VAON_EXCURSION (R400). -/
  | vaonExcursion (below : Bool)
  /-- PROGRAM (R375). -/
  | keyProgram (w : Who) (v : Word)
  /-- PROGRAM_DONE (R375). -/
  | keyProgramDone
  /-- REVOKE (R376). -/
  | keyRevoke (w : Who) (v : Word)
  /-- BYPASS (R383). -/
  | jtagBypass
  /-- IDCODE (R383). -/
  | jtagIdcode
  /-- SAMPLE_PRELOAD (R383). -/
  | jtagSamplePreload (shift : List Bool)
  /-- EXTEST (R384). -/
  | jtagExtest (shift : List Bool)
  /-- CLAMP (R384). -/
  | jtagClamp
  /-- HIGHZ (R384). -/
  | jtagHighz
  /-- EXTEST_PULSE (R383). -/
  | jtagExtestPulse (shift : List Bool)
  /-- EXTEST_TRAIN (R383). -/
  | jtagExtestTrain (shift : List Bool)
  /-- JTAG_TRST (R384). -/
  | jtagTrst
  /-- RMA_UNLOCK (R385). -/
  | rmaUnlock (sig : Signature) (supplyLost : Bool)
  /-- REFCLK_RETURN (R323). -/
  | refclkReturn
  /-- MET_FRAME_ABORT (R222). -/
  | metFrameAbort
  /-- MET_UNDEFINED_COMMAND (R222). -/
  | metUndefinedCommand (cmd : Byte) (addr : BitVec 24) (data : List Word) (crc : Byte)
  /-- MSPI_UNDEFINED_OP (R285). -/
  | mspiUndefinedOp (cmd : Byte) (addr : BitVec 24) (data : List Word) (crc : Byte)
  /-- CLAMP_EXIT (R50). -/
  | clampExit (c : ChanIx)
  /-- MON_RETURN_TO_NORMAL (R231). -/
  | monReturnToNormal (m : MonIx) (volts : Word)
  /-- PPS_OUT_END (R309). -/
  | ppsOutEnd
  /-- GUY_STROBE_END (R318). -/
  | guyStrobeEnd
  deriving DecidableEq, Repr

end Sys2Proof
end

