-- ==== Sys2Proof/Machine/Bits.lean ====
section
/-! DEFINITION. Bit fields, sparse tables, binary32 values as exact integers (R6), and the CRC-8 of the serial ports (R222, R282). -/

namespace Sys2Proof.Machine

/-! ## Fields -/

/-- Bits lo + len − 1 to lo of a number. -/
def bitsOf (v lo len : Nat) : Nat := v / 2 ^ lo % 2 ^ len

/-- Bits lo + len − 1 to lo of a word. -/
def fld (v : Word) (lo len : Nat) : Nat := bitsOf v.toNat lo len

/-- Bit i of a word. -/
def bit (v : Word) (i : Nat) : Bool := v.getLsbD i

/-- A word from a number. -/
def wd (n : Nat) : Word := BitVec.ofNat 32 n

/-- A flag at bit i. -/
def flag (b : Bool) (i : Nat) : Word := if b then wd (2 ^ i) else 0

/-- A field placed at bit lo. -/
def at' (n lo : Nat) : Word := wd (n * 2 ^ lo)

/-- Lower and upper words of a 64-bit value. -/
def lo32 (v : BitVec 64) : Word := v.extractLsb' 0 32
def hi32 (v : BitVec 64) : Word := v.extractLsb' 32 32
/-- The 64-bit value of two words. -/
def join64 (hi lo : Word) : BitVec 64 := hi ++ lo
/-- Word i of a number. -/
def wordOf (n i : Nat) : Word := wd (n / 2 ^ (32 * i))

/-- The little-endian bytes of a number. -/
def bytesOf (k n : Nat) : List Byte := (List.range k).map fun i => BitVec.ofNat 8 (n / 2 ^ (8 * i))
/-- The little-endian bytes of a list of words. -/
def wordBytes (ws : List Word) : List Byte := ws.flatMap fun w => bytesOf 4 w.toNat
/-- The number that little-endian bytes hold. -/
def leNat : List Byte → Nat
  | [] => 0
  | b :: bs => b.toNat + 256 * leNat bs

/-- The set bits of a mask, ascending, below n. -/
def bitsSet (n v : Nat) : List Nat := (List.range n).filter fun i => v.testBit i

/-! ## Tables -/

/-- The entry at i, or d where none is listed. -/
def tget {α : Type} (d : α) : Tab α → Nat → α
  | [], _ => d
  | (k, a) :: r, i => if k = i then a else tget d r i

/-- The entry at i, if listed. -/
def tfind {α : Type} : Tab α → Nat → Option α
  | [], _ => none
  | (k, a) :: r, i => if k = i then some a else tfind r i

/-- The table with the entry at i. -/
def tput {α : Type} : Tab α → Nat → α → Tab α
  | [], i, v => [(i, v)]
  | (k, a) :: r, i, v =>
    if k = i then (i, v) :: r else if i < k then (i, v) :: (k, a) :: r else (k, a) :: tput r i v

/-- The entry at i changed. -/
def tmod {α : Type} (d : α) (t : Tab α) (i : Nat) (f : α → α) : Tab α := tput t i (f (tget d t i))

/-- A list written from index i on. -/
def tputList {α : Type} (t : Tab α) (i : Nat) : List α → Tab α
  | [] => t
  | v :: vs => tputList (tput t i v) (i + 1) vs

/-- The table with its entry at i taken out. -/
def tdel {α : Type} (t : Tab α) (i : Nat) : Tab α := t.filter fun p => p.1 ≠ i

/-- An element put into a list sorted by a key, after its equals. -/
def insertOn {α : Type} (f : α → Nat) (x : α) : List α → List α
  | [] => [x]
  | y :: r => if f x < f y then x :: y :: r else y :: insertOn f x r

/-- A list sorted by a key, equals in their order. -/
def sortOn {α : Type} (f : α → Nat) (xs : List α) : List α := xs.foldl (fun r x => insertOn f x r) []

/-! ## Sparse bytes in canonical form -/

/-- The form of a byte memory whose unlisted bytes read zero: rising addresses, no zero listed. -/
def Memory.wf : List (Nat × Byte) → Bool
  | [] => true
  | [(_, v)] => v != 0
  | (a, v) :: (b, w) :: r => v != 0 && decide (a < b) && Memory.wf ((b, w) :: r)

/-- The byte at an address. -/
def memGet : List (Nat × Byte) → Nat → Byte
  | [], _ => 0
  | (k, v) :: r, a => if k = a then v else memGet r a

/-- A byte written: writing zero takes the entry out. -/
def memPut : List (Nat × Byte) → Nat → Byte → List (Nat × Byte)
  | [], a, v => if v = 0 then [] else [(a, v)]
  | (k, x) :: r, a, v =>
    if k = a then (if v = 0 then r else (a, v) :: r)
    else if a < k then (if v = 0 then (k, x) :: r else (a, v) :: (k, x) :: r)
    else (k, x) :: memPut r a v

/-- Bytes written at rising addresses. -/
def memPutList (m : List (Nat × Byte)) (a : Nat) : List Byte → List (Nat × Byte)
  | [] => m
  | v :: vs => memPutList (memPut m a v) (a + 1) vs

/-- n bytes read at rising addresses. -/
def memGetList (m : List (Nat × Byte)) (a n : Nat) : List Byte := (List.range n).map fun i => memGet m (a + i)

/-! ## binary32 -/

/-- Neither NaN nor infinity. -/
def f32Finite (w : Word) : Bool := fld w 23 8 != 255

/-- Value of a finite word times 2^149, exactly. -/
def f32Num (w : Word) : Int :=
  let e := fld w 23 8
  let m := fld w 0 23
  let n : Nat := if e = 0 then m else (2 ^ 23 + m) * 2 ^ (e - 1)
  if bit w 31 then -(n : Int) else n

/-- The binary32 word nearest num / den, ties to even (R6); den > 0. -/
def f32Round (num : Int) (den : Nat) : Word :=
  let big := num.natAbs * 2 ^ 149
  let q0 := big / den
  let s := Nat.log2 q0 - 23
  let unit := den * 2 ^ s
  let q := big / unit
  let r := big % unit
  let q' := if 2 * r > unit ∨ (2 * r = unit ∧ q % 2 = 1) then q + 1 else q
  let body := min (s * 2 ^ 23 + q') (255 * 2 ^ 23)
  wd (body + if num < 0 then 2 ^ 31 else 0)

/-- The word nearest a value given times 2^149. -/
def f32OfNum (n : Int) : Word := f32Round n (2 ^ 149)

/-- Value times 2^149 of the binary32 nearest num / den. -/
def f32Dec (num : Int) (den : Nat) : Int := f32Num (f32Round num den)

/-- Value times 2^149 of an integer. -/
def f32Int (n : Int) : Int := n * 2 ^ 149

/-- Finite and within num-valued bounds, inclusive. -/
def f32In (lo hi : Int) (w : Word) : Bool :=
  f32Finite w && decide (lo ≤ f32Num w) && decide (f32Num w ≤ hi)

/-! ## Division of integers -/

/-- num / den to the nearest integer, ties to even; den > 0. -/
def roundDiv (num : Int) (den : Nat) : Int :=
  let q := num / den
  let r := num % den
  if 2 * r > den ∨ (2 * r = den ∧ q % 2 = 1) then q + 1 else q

/-- The least n with n × d ≥ a; d > 0. -/
def ceilDiv (a d : Nat) : Nat := (a + d - 1) / d

/-- The signed number that the lower k bits hold. -/
def signed (k n : Nat) : Int := let m := n % 2 ^ k; if m < 2 ^ (k - 1) then (m : Int) else (m : Int) - 2 ^ k

/-- A signed number as a 32-bit word, held to the range of 32 bits. -/
def satWord (n : Int) : Word := BitVec.ofInt 32 (max (-2147483648) (min 2147483647 n))

/-! ## CRC-8, polynomial x^8 + x^2 + x + 1, initial value 0 -/

/-- One bit of the CRC. -/
def crcBit (c : Nat) : Nat := if c ≥ 128 then (c * 2 % 256) ^^^ 7 else c * 2

/-- One byte of the CRC. -/
def crcByte (c : Nat) (b : Byte) : Nat :=
  crcBit (crcBit (crcBit (crcBit (crcBit (crcBit (crcBit (crcBit (c ^^^ b.toNat))))))))

/-- The CRC of a list of bytes. -/
def crc8 (bs : List Byte) : Byte := BitVec.ofNat 8 (bs.foldl crcByte 0)

end Sys2Proof.Machine
end

