-- ==== Sys2Proof/Config.lean ====
section
/-! DEFINITION. What one part of the ZT512 fixes (fuses, trims, the factory calibration), the free values, and the cryptographic functions the spec names without defining. The opaque constants have no body: nothing can be proved of a value of theirs. Log entries 4, 6 and 9. -/

namespace Sys2Proof.Config

/-- FREE VALUE: what the spec leaves open, read at a fresh index each time (State.freeCtr). Log 4. -/
opaque freeNat : Nat → Nat

/-- FREE VALUE as an integer, for drifts and errors of either sign. Log 4. -/
opaque freeInt : Nat → Int

/-- Fused stepping of TOP_VERSION, 0 for A and 1 for B (R389). -/
opaque steppingFuse : Nat
/-- Fused device serial number DEV_SN (R221). -/
opaque devSn : BitVec 64
/-- Fused driver delay of channel c before it is held in its range (R85, R90). -/
opaque tDrvFuse : Nat → Nat
/-- Fused comparator delay of channel c before it is held in its range (R85, R90). -/
opaque tCmpFuse : Nat → Nat
/-- Fused CLKOUT latency before it is held in its range (R329, R406). -/
opaque clkOutLatFuse : Nat
/-- Fused steady-state thermal matrix Θ[k][j] of a cooling class, a binary32 word in K/W (R251, R336). -/
opaque thetaFuse : (cls k j : Nat) → Word
/-- Fused update factor Δt/τ_ki of a cooling class, a binary32 word (R336). -/
opaque dtOverTauFuse : (cls k i : Nat) → Word
/-- Fused weight w_ki of a cooling class for i = 1 and 2, a binary32 word; w_k3 is what is left of 1 (R336). -/
opaque weightFuse : (cls k i : Nat) → Word
/-- The calibration store as manufactured: word w of table t at 32 × t + w (R218). -/
opaque factoryCal : Nat → Word
/-- The mirror's words between start-up and the mirror's acceptance, for which the spec gives none (R30, R219). Log 84. -/
opaque mirrorBefore : Nat → Word
/-- GAIN of table t under nominal coefficients where R49, R69 and R229 give no nominal step: node 5, node 6 forcing
voltage, nodes 7 and 8, and tables with no node (R219). Log 33. -/
opaque nominalGain : Nat → Word
/-- The main converter measures a node, with its index, in its 16 V range (R218; the spec says only that the device chooses from
the node). Log 98. -/
opaque mainWide : (node ix : Nat) → Bool
/-- DAC code of channel c for a value of a word that no calibration table serves: IOL, IOH and the current clamps, by the
word's offset in the lane block (R69, R218). Log 84. -/
opaque currentCode : (c off : Nat) → Word → Int
/-- FREE VALUE: the per-boot key of the n-th draw of the random generator (R380). -/
opaque bootKey : Nat → BitVec 512
/-- FREE VALUE: what the engine of R381 holds for a key once the per-boot key is erased. Log 3. -/
opaque erasedKey : BitVec 512
/-- KHASH of the vendor's key slot 0, fused at manufacture (R374). -/
opaque vendorHash : BitVec 384
/-- IKEY of the vendor's key slot 0 (R374). -/
opaque vendorKey : BitVec 256
/-- The seal key as manufactured (R221). -/
opaque factorySealKey : BitVec 256

/-- SHA-256 over the whole calibration store, given as its words that differ from the factory's (R219). -/
opaque storeDigest : Tab Word → BitVec 256
/-- SHA-256 over a list of bytes (R225). -/
opaque sha256 : List Byte → BitVec 256
/-- SHA-384 over a list of bytes (R241, R374, R378). -/
opaque sha384 : List Byte → BitVec 384
/-- The candidate ECDSA P-384 public keys that a digest and a signature (r, s) admit, each in uncompressed SEC1 form (R374,
R378). -/
opaque p384Keys : (digest r s : BitVec 384) → List (List Byte)
/-- AES-256-GCM with a 128-bit tag (R379): what the payload decrypts to under a key, an IV and the additional data, none where
the tag is wrong. -/
opaque gcmOpen : (key : BitVec 256) → (iv : BitVec 96) → (aad payload : List Byte) → (tag : BitVec 128) → Option (List Byte)
/-- AES-XTS-256 of a data unit of 64 bytes, byte 0 lowest: its tweak is the stack number and the unit's stack-local byte offset
divided by 64 (R381). -/
opaque xtsEncrypt : (key : BitVec 512) → (stack unit : Nat) → BitVec 512 → BitVec 512
/-- The decryption of AES-XTS-256 (R381). -/
opaque xtsDecrypt : (key : BitVec 512) → (stack unit : Nat) → BitVec 512 → BitVec 512
/-- HMAC-SHA-256 (R222 to R225). -/
opaque hmacSha256 : BitVec 256 → List Byte → BitVec 256

/-- The group order n of P-384, which R378 names without giving it (log 94). -/
def p384Order : Nat :=
  0xFFFFFFFFFFFFFFFFFFFFFFFFFFFFFFFFFFFFFFFFFFFFFFFFC7634D81F4372DDF581A0DB248B0A77AECEC196ACCC52973

/-- The signature (r, s) over a message is by a key whose SHA-384 in SEC1 form is khash: r and s are in range, and one of the
keys recovered has that digest (R378). -/
def signedBy (khash : BitVec 384) (message : List Byte) (r s : BitVec 384) : Bool :=
  r != 0 && decide (r.toNat < p384Order) && s != 0 && decide (s.toNat < p384Order) &&
    (p384Keys (sha384 message) r s).any fun k => sha384 k == khash

/-- A value held between bounds, as a fuse's range holds it. -/
def held (lo hi v : Nat) : Nat := max lo (min hi v)

/-- t_drv of channel c, 1,000 to 2,400 qps (R90). -/
def tDrv (c : Nat) : Nat := held 1000 2400 (tDrvFuse c)
/-- t_cmp of channel c, 1,000 to 2,400 qps (R90). -/
def tCmp (c : Nat) : Nat := held 1000 2400 (tCmpFuse c)
/-- CLK_OUT_LAT, 6,000 to 8,000 qps (R406). -/
def clkOutLat : Nat := held 6000 8000 clkOutLatFuse
/-- Word a of the calibration store as manufactured: words 18 to 31 of a table are zero (R218). -/
def storeWord (a : Nat) : Word := if 18 ≤ a % 32 ∧ a < 32 * 8324 then 0 else factoryCal a
/-- Stepping, 0 or 1 (R389). -/
def stepping : Nat := held 0 1 steppingFuse

end Sys2Proof.Config
end

