-- ==== Sys2Proof/Machine/State.lean ====
section
/-! DEFINITION. The state of the ZT512 as plain data, its reset value, and the reasons a command can stop. -/

namespace Sys2Proof.Machine

/-- A 48-bit saturating counter with its SAT flag (R128). -/
structure Cnt48 where
  count : BitVec 48 := 0
  sat   : Bool := false
  deriving DecidableEq, Repr

/-! ## The pin channel (R37 to R71) -/

/-- One lane's block of the channel parameter memory (R58). -/
structure LaneP where
  vih : Word := 0
  vil : Word := 0
  vtt : Word := 0
  vch : Word := 0
  vcl : Word := 0
  iol : Word := 0
  ioh : Word := 0
  vcom : Word := 0
  ppmuForce : Word := 0
  vclampHi : Word := 0x40C00000
  vclampLo : Word := 0xBFC00000
  iclampHi : Word := 0x360637BD
  iclampLo : Word := 0xB60637BD
  parkV : Word := 0
  chCfg : Word := 0
  ppmuCfg : Word := 0
  adcCfg : Word := 0
  apgMap : Word := 0
  deriving DecidableEq, Repr

/-- What a lane does in a vector once its pin code is resolved (R101). -/
inductive Act where
  | off | mask | drive (d : Bool) | cmp (hi : Bool) | cmpZ | sample
  /-- Code 0xD masked by its stream: compare-class, but no compare (R74, R151, R153). -/
  | streamMask
  deriving DecidableEq, Repr

/-- What an edge placed at a pin does (R75, R76). -/
inductive EdgeKind where
  | on | data (d : Bool) | ret (d : Bool) | off | strobe | winOpen | winClose
  /-- The active load turns on or off (R47). -/
  | loadOn | loadOff
  deriving DecidableEq, Repr

/-- A switching sequence of R70 in progress: everything open, the output held at the present pin voltage, the handover of an
FI range change, the make-before-break of an FV range change, or the output going to high impedance. -/
inductive Switch where
  | opened | held | handover | ranging | releasing
  deriving DecidableEq, Repr

/-- The dynamic state of one channel. -/
structure Chan where
  /-- SAFE bit of BENCH_PE_SAFE (R65). -/
  inSafe : Bool := true
  /-- A fault reaction holds the channel: for a channel that no site holds (R341). -/
  faultHold : Bool := false
  /-- Instant, by State.mono, at which the channel's own quiet period began, once its last source has deasserted (R341). -/
  quietFrom : Option Nat := none
  /-- Instant, by State.mono, of the end of the reaction of the fault that holds the channel (R351). -/
  reactEnd : Nat := 0
  /-- HV_MODE change in progress: the tick its 20 µs end, the new HV_MODE, and whether the lane was in safe state
  before (R44). -/
  hvChange : Option (Nat × Bool × Bool) := none
  /-- Lane 7 discharge path connected (R54). -/
  discharge : Bool := true
  /-- Tick at which the discharge phase ends (R56). -/
  dischargeEnd : Nat := 0
  /-- The driver is on, and the level it last drove (R75). -/
  drvOn : Bool := false
  drvLevel : Bool := false
  /-- The active load is on (R47), the PPMU connected (R37), and PPMU forcing PARK_V in PARK (R54). -/
  loadOn : Bool := false
  ppmuOn : Bool := false
  parkForce : Bool := false
  /-- The switching sequence in progress at the analogue outputs and its settling: the tick it ends (R70, R71). -/
  settleEnd : Nat := 0
  /-- The latest switching sequence and the tick it ends (R70). -/
  switch : Option (Switch × Nat) := none
  /-- Since a change from PMU to DIGITAL mode the driver has had no drive edge: high impedance (R70). -/
  undriven : Bool := false
  /-- BENCH_PE_CLAMP and CLAMP_SEEN bits (R65). -/
  clamp : Bool := false
  clampSeen : Bool := false
  /-- The converter's latest results with the grid points at which their averages ended, newest first (R53, R198), and
  the grid position of its last restart. -/
  adcResults : List (Nat × Word) := []
  adcRestart : Option Nat := none
  /-- Edges placed for the channel's most recent beat at the pins, in qps (R20, R85). -/
  edges : List (Nat × EdgeKind) := []
  /-- Deskew word BENCH_TMG_DSK and result word BENCH_TMG_TDR (R90). -/
  dsk : Word := 0
  tdr : Word := 0
  /-- Deskew in force in the run (R87). -/
  dskRun : Word := 0
  /-- Issue side: previous vector's action (R102) and the data level of the previous drive-class vector (R75). -/
  lastAct : Act := .off
  lastData : Bool := false
  /-- FAIL_CNT(l) (R173). -/
  failCnt : Cnt48 := {}
  deriving DecidableEq, Repr

/-! ## Beats and vectors in flight -/

/-- The APG snapshot of a vector (R145). -/
structure Snap where
  x : Word := 0
  y : Word := 0
  z : Word := 0
  px : Word := 0
  py : Word := 0
  pz : Word := 0
  td : Word := 0
  c : Word := 0
  deriving DecidableEq, Repr

/-- A lane's words of a library entry (R72). -/
structure LaneT where
  dOn : Nat := 0
  dData : Nat := 0
  dRet : Nat := 0
  dOff : Nat := 0
  cOpen : Nat := 0
  cClose : Nat := 0
  tcfg : Word := 0
  deriving DecidableEq, Repr

/-- One lane of one vector, as resolved when its beat issued. -/
structure LaneVec where
  act : Act := .off
  /-- Masked by IOMASK (R99). -/
  iomasked : Bool := false
  t : LaneT := {}
  apgMap : Word := 0
  deriving DecidableEq, Repr

/-- One vector: slot, start T(k) and period in qps (R20), its lanes and its APG snapshot. -/
structure Vec where
  slot : Nat := 0
  start : Nat := 0
  period : Nat := 0
  lanes : List LaneVec := []
  snap : Snap := {}
  deriving DecidableEq, Repr

/-- One beat of one bench, from its issue until its results return (R17, R18). -/
structure Beat where
  num : Nat := 0
  guard : Bool := false
  gsel : Nat := 0
  mark : Option (BitVec 8) := none
  period : Bool := false
  pspi : Option Nat := none
  event : Option (BitVec 20) := none
  captEn : Bool := false
  flagClr : Bool := false
  /-- Parameter-memory items of the APPLYs that cut at this beat (R21, R260). -/
  items : List (Nat × Word) := []
  vecs : List Vec := []
  deriving DecidableEq, Repr

/-- What was in force on a lane when a beat's first vector started at the pins. -/
structure FlightLane where
  vch : Word := 0
  vcl : Word := 0
  diff : Bool := false
  /-- The channel was in safe state (R56), and the instants in qps at which it has since entered or left it. -/
  drop : Bool := false
  flips : List Nat := []
  deriving DecidableEq, Repr

/-- A beat whose vectors are at the pins or in the fail pipeline, with the bench's T_L and guard window (R261). -/
structure Flight where
  beat : Beat := {}
  lanes : List FlightLane := []
  tl : Nat := 0
  gw : Nat := 0
  deriving DecidableEq, Repr

/-! ## The bench sequencer (R93 to R128) -/

/-- Sequencer state codes (R128). -/
inductive SeqState where
  | idle | armed | issue | wait | sync | hstall | keepalive | drain | halted | stopped | faulted | gated
  deriving DecidableEq, Repr

/-- A stack entry (R106). -/
structure StackEntry where
  ret : Nat := 0
  handler : Bool := false
  rem : Nat := 0
  deriving DecidableEq, Repr

/-- A firing of the WAIT_TRIG input while no WAIT_TRIG was executing: its tick and sources, and the PEND and MERGED bits of
event input 6 before it (R107, R120). -/
structure Gen0 where
  tick : Nat
  srcs : List Nat
  pend : Bool
  merged : Bool
  deriving DecidableEq, Repr

/-- The sequencer of one bench. -/
structure Seq where
  state : SeqState := .gated
  /-- The state to return to when a gated bench wakes (R333). -/
  heldState : SeqState := .idle
  pc : Nat := 0
  /-- Address of the microword that would issue next. -/
  next : Nat := 0
  /-- Beats still to issue of the REPEAT or WAIT_BEATS in progress. -/
  rem : Nat := 0
  /-- Remaining count taken from the stack by a RETURN into a WAIT_BEATS (R122). -/
  resume : Nat := 0
  /-- Beats issued of the WAIT_TRIG in progress, and its timeout. -/
  waited : Nat := 0
  timeout : Nat := 0
  /-- Target epoch of the GANG_SYNC in progress (R108). -/
  syncEpoch : Nat := 0
  stack : List StackEntry := []
  handler : Bool := false
  trig : Bool := false
  lcnt : Tab Word := []
  lact : BitVec 8 := 0
  lstart : Tab Nat := []
  beat : Nat := 0
  hstall : Cnt48 := {}
  bpress : Cnt48 := {}
  evtcnt : Cnt48 := {}
  urBeats : Cnt48 := {}
  wrRefused : Bool := false
  evtEn : BitVec 8 := 0
  hflag : Bool := false
  /-- The tick of the last write of HFLAG, and the value that conditions evaluated on that tick see (R113). -/
  hflagTick : Option Nat := none
  hflagOld : Bool := false
  entry : Nat := 0
  kaNano : Nat := 0
  evtPend : BitVec 8 := 0
  evtMerged : BitVec 8 := 0
  evtVec : Tab Nat := []
  lreg : Tab Word := []
  iomask : Tab (BitVec 8) := []
  wtPrimary : BitVec 8 := 0xFF
  wtTimeout : Bool := false
  wtReleased : Bool := false
  wtSrc : BitVec 192 := 0
  wtBeat : Nat := 0
  /-- Trigger pulses that have reached the WAIT_TRIG input and not been taken: tick and source. -/
  wtPulses : List (Nat × Nat) := []
  /-- The latest firing that found no WAIT_TRIG executing. -/
  gen0 : Option Gen0 := none
  marker : BitVec 8 := 0
  underflow : Bool := false
  maxOcc : Nat := 0
  faultCode : Nat := 0
  faultAddr : Nat := 0
  faultBeat : Nat := 0
  deriving DecidableEq, Repr

/-! ## The APG (R129 to R149) -/

/-- The APG of one bench: registers, flags, table, presets and window registers. -/
structure Apg where
  regs : ApgRegs := {}
  ax : Bool := false
  ay : Bool := false
  clut : Tab Word := []
  presets : Tab Word := []
  err : Bool := false
  errCode : Nat := 0
  errAddr : Nat := 0
  clutInc : Bool := false
  clutAddr : Nat := 0
  clutPast : Bool := false
  preInc : Bool := false
  preAddr : Nat := 0
  prePast : Bool := false
  deriving DecidableEq, Repr

/-! ## Timing library, streams, fail capture of one bench -/

/-- The TMG sub-block (R72 to R92): library by byte offset, slot map and window. -/
structure Tmg where
  lib : Tab Word := []
  slotLo : Word := 0
  slotHi : Word := 0
  mappedLo : Bool := false
  mappedHi : Bool := false
  inc : Bool := false
  addr : Nat := 0
  past : Bool := false
  err : Bool := false
  errCode : Nat := 0
  errAddr : Nat := 0
  deriving DecidableEq, Repr

/-- The PE window of one bench (R62 to R68). -/
structure PeWin where
  inc : Bool := false
  addr : Nat := 0
  past : Bool := false
  err : Bool := false
  errCode : Nat := 0
  errAddr : Nat := 0
  deriving DecidableEq, Repr

/-- The vector stream of one bench (R150 to R171). -/
structure Strm where
  cfg : StreamCfg := {}
  prod : Nat := 0
  cons : Nat := 0
  chw : Nat := 0
  /-- Ticks at which PROD moved, newest first, with the value it took (R155). -/
  prodHist : List (Nat × Nat) := []
  eos : Bool := false
  /-- PROD as EOS marked it (R158). -/
  eosAt : Nat := 0
  pinned : Tab Bool := []
  /-- The 4 KiB landing copies, by landing and byte (R161). -/
  landCopy : Tab (Tab Byte) := []
  /-- Loop buffer: the landing that fills it, the bytes filled, its content (R162). -/
  loopOf : Option Nat := none
  loopFill : Nat := 0
  loopData : Tab Byte := []
  /-- The record that the bench consumed most recently since the start (R153). -/
  lastRec : Option Word := none
  prodRefused : Bool := false
  badCode : Bool := false
  lost : Bool := false
  lwSeen : Bool := false
  low : Bool := false
  /-- A low-water record has been posted since PROD − CONS last reached the level (R159). -/
  lwPosted : Bool := false
  detached : Bool := false
  aborted : Bool := false
  short : Bool := false
  ur0 : Bool := false
  ur1 : Bool := false
  discard : Cnt48 := {}
  lndInc : Bool := false
  lndAddr : Nat := 0
  deriving DecidableEq, Repr

/-- A first-fail record (R175). -/
structure FirstFail where
  valid : Bool := false
  beat : Nat := 0
  slot : Nat := 0
  fail : BitVec 8 := 0
  masked : BitVec 8 := 0
  nocmp : BitVec 8 := 0
  lvlH : BitVec 8 := 0
  lvlL : BitVec 8 := 0
  snap : Snap := {}
  deriving DecidableEq, Repr

/-- A fail log entry (R177). -/
structure LogEntry where
  beat : Nat := 0
  slot : Nat := 0
  bench : Nat := 0
  sample : Bool := false
  fail : BitVec 8 := 0
  masked : BitVec 8 := 0
  nocmp : BitVec 8 := 0
  lvlH : BitVec 8 := 0
  lvlL : BitVec 8 := 0
  count : Nat := 1
  span : Nat := 0
  snap : Snap := {}
  /-- No compare vector of the bench has come on the site's lanes since the entry's last vector (R179). -/
  fresh : Bool := true
  deriving DecidableEq, Repr

/-- A pending HBM write of a site's write queue (R180): a log entry, or the bits of one bitmap update. -/
inductive PendingWrite where
  | log (e : LogEntry)
  | bitmap (bits : List Nat)
  deriving DecidableEq, Repr

/-- One bench. Lane-indexed tables are by lane. -/
structure Bench where
  /-- Partition that the image names for the bench (R16). -/
  part : Option Nat := none
  seq : Seq := {}
  apg : Apg := {}
  tmg : Tmg := {}
  pe : PeWin := {}
  strm : Strm := {}
  chans : Tab Chan := []
  lanes : Tab LaneP := []
  ff : Tab FirstFail := []
  /-- The most recent log entry of each half, while it is open (R179). -/
  openEntry : Tab LogEntry := []
  micro : Tab (BitVec 48) := []
  nano : Tab (BitVec 256) := []
  fifo : List Beat := []
  flight : List Flight := []
  /-- Start of the next vector, T(k), in qps (R20). -/
  nextT : Nat := 0
  /-- T_L of R261, in qps. -/
  tl : Nat := 0
  awake : Bool := false
  waking : Bool := false
  /-- N and WIN of the bench DLL's present lock acquisition (R324). -/
  acqN : BitVec 16 := 256
  acqWin : BitVec 6 := 8
  pwrErr : Bool := false
  pwrCode : Nat := 0
  /-- CLK_DLL_LOCK bit (R326). -/
  dllLock : Bool := false
  stgItems : List (Word × Word) := []
  stgOvf : Bool := false
  /-- A counter-saturated record has been posted since the start (R173). -/
  satPosted : Bool := false
  deriving DecidableEq, Repr

/-! ## Gangs and sites -/

/-- A gang of the structure in force, and its run. -/
structure Gang where
  cfg : GangCfg := {}
  guard : Tab Nat := []
  /-- Start epoch while ARMED (R25). -/
  startEpoch : Nat := 0
  /-- A stop has been accepted and not yet taken effect (R127), and whether the channels then go to safe state. -/
  stopReq : Bool := false
  stopSafe : Bool := false
  /-- Tick of the last issued beat (R17). -/
  lastIssue : Option Nat := none
  /-- Beats whose results have returned (R172). -/
  returned : Nat := 0
  /-- First beat of the present fail flags, and the first failing beat of each site since (R114). -/
  clrBeat : Nat := 0
  firstFail : Tab Nat := []
  /-- The microword at `next` has been chosen at its boundary and has not issued: a horizon stall (R123), or a lost record
  (R163). -/
  chosen : Bool := false
  /-- First tick on which the next microword may issue after a released wait (R107). -/
  issueFrom : Nat := 0
  deriving DecidableEq, Repr

/-- States of a site (R352). -/
inductive SiteState where
  | normal | safe | quiet | restart | latched
  deriving DecidableEq, Repr

/-- A site of the structure in force (R15, R352), its log and bitmap (R176 to R182). -/
structure Site where
  cfg : SiteCfg := {}
  fail : FailCfg := {}
  state : SiteState := .normal
  recCnt : Nat := 0
  lastSrc : Nat := 0
  /-- Instants, by State.mono, of the reaction's end and of the quiet period's end (R351). -/
  reactEnd : Nat := 0
  quietEnd : Nat := 0
  /-- The longest quiet period, in µs, among the faulted groups. -/
  quietUs : Nat := 0
  /-- Release epoch of a RESUME_AT_HANDLER site whose re-initialisation has ended (R352). -/
  releaseAt : Option Nat := none
  logWr : Nat := 0
  logFull : Bool := false
  qovf : Bool := false
  bmIncomplete : Bool := false
  logDrop : Cnt48 := {}
  bmDrop : Cnt48 := {}
  bmOutwin : Cnt48 := {}
  queue : List PendingWrite := []
  /-- Log entries that close on the present tick and have still to be put in order (R178): empty between commands. -/
  closing : List LogEntry := []
  deriving DecidableEq, Repr

/-! ## Repair analysis (R183 to R192) -/

/-- A fail point: row, and column with its IO index (R183). -/
structure Point where
  row : Nat
  col : Nat
  io  : Nat
  deriving DecidableEq, Repr

/-- The intake content of a region and its outcome (R184 to R189). -/
structure RegionRep where
  /-- Intake content (R184, R188). -/
  touched : Bool := false
  points : List Point := []
  mustRows : List Nat := []
  mustCols : List (Nat × Nat) := []
  /-- The region ended at intake, with outcome and cause. -/
  ended : Option (Nat × Nat) := none
  /-- What the last search found (R186): outcome, cause, OPTIMAL, nodes, rows and columns as (IO, column). -/
  outcome : Nat := 0
  cause : Nat := 0
  optimal : Bool := false
  nodes : Nat := 0
  rows : List Nat := []
  cols : List (Nat × Nat) := []
  deriving DecidableEq, Repr

/-- States of an engine (R188). -/
inductive RaeState where
  | idle | intake | paused | search | done
  deriving DecidableEq, Repr

/-- A repair analysis engine. -/
structure Rae where
  cfg : RepairCfg := {}
  state : RaeState := .idle
  refused : Bool := false
  incomplete : Bool := false
  nonio : Bool := false
  dropped : Bool := false
  regions : Tab RegionRep := []
  /-- The intake queue: points not yet taken in, oldest first, with the tick from which it drains (R185). -/
  inq : List (Nat × Point) := []
  inqTick : Nat := 0
  maxOcc : Nat := 0
  result : Word := 0
  nodes : Nat := 0
  tsearch : Nat := 0
  trigTick : Nat := 0
  /-- Tick of the last ANALYSE that started a search: a start on that same tick is taken instead (R188). -/
  analysed : Option Nat := none
  drop : Cnt48 := {}
  solValid : Bool := false
  solInc : Bool := false
  solAddr : Nat := 0
  deriving DecidableEq, Repr

/-! ## Triggers and acquisition (R193 to R213) -/

/-- One output driven by the matrix: TRIG_OUT[3:0] or GUY[5:2] (R196). -/
structure TrigOut where
  active : Bool := false
  endTick : Nat := 0
  deriving DecidableEq, Repr

/-- A trigger input: the tick of its last edge, and the last level that lasted 2 ticks (R195). -/
structure TrigIn where
  edgeAt : Option Nat := none
  stable : Bool := false
  deriving DecidableEq, Repr

/-- The TRIGX block: routes and enables by destination, and the input and output configuration. -/
structure Trigx where
  routes : Tab (List Nat) := []
  en : Tab Bool := []
  tw : BitVec 8 := 0x08
  opol : BitVec 4 := 0
  edge : BitVec 8 := 0
  outs : Tab TrigOut := []
  ins : Tab TrigIn := []
  /-- Pulses on their way (R32): arrival tick, destination, source. -/
  inflight : List (Nat × Nat × Nat) := []
  deriving DecidableEq, Repr

/-- States of an acquisition unit (R201). -/
inductive AcqState where
  | idle | waitStart | pre | post | final | held | done
  deriving DecidableEq, Repr

/-- A record in progress or being finalised (R203 to R211). -/
structure Record where
  /-- Grid point of interval 0's first frame, none until it is taken, and frames taken since. -/
  first : Option Nat := none
  frames : Nat := 0
  /-- Raw results of the interval in progress, by channel of the unit, newest first. -/
  acc : Tab (List Word) := []
  /-- Intervals completed. -/
  intervals : Nat := 0
  trigInterval : Option Nat := none
  trigOfs : Nat := 0
  /-- The trigger frame's grid point, and local time there in 2^−48 ns. -/
  trigTick : Nat := 0
  trigLocal : Nat := 0
  sources : BitVec 192 := 0
  safe : Bool := false
  flags : BitVec 8 := 0
  /-- Runs of dropped entries: first interval and length, oldest first (R209). -/
  gaps : List (Nat × Nat) := []
  /-- Entry positions written in this record (R225). -/
  written : Tab Bool := []
  endCode : Nat := 0
  /-- Result interval in µs at the record's first frame (R199, R210). -/
  us : Nat := 1
  deadSamples : Nat := 0
  deadNs : Nat := 0
  lostTrig : Cnt48 := {}
  firstLost : Nat := 0
  deriving DecidableEq, Repr

/-- An acquisition unit. -/
structure Acq where
  cfg : AcqCfg := {}
  acqCfg : Word := 0
  mode : Word := 0
  chsel : Word := 0
  pre : Word := 0
  post : Word := 0
  nrec : Word := 0
  tlevel : Word := 0
  thyst : Word := 0
  wlo : Word := 0
  whi : Word := 0
  qlevel : Word := 0
  refused : Bool := false
  overrate : Bool := false
  gapSeen : Bool := false
  heldSeen : Bool := false
  errCode : Nat := 0
  state : AcqState := .idle
  wr : Nat := 0
  rd : Nat := 0
  recno : Nat := 0
  rcd : Record := {}
  /-- FINAL leads to IDLE: after a stop, or a change that leaves the intervals unequal (R201, R211). -/
  finalIdle : Bool := false
  lost : Cnt48 := {}
  gapCnt : Cnt48 := {}
  /-- Frames of the dead time since the last record, their time in ns, each at the result interval it had, and the tick of its
  first lost trigger (R208). -/
  deadFrames : Nat := 0
  deadNs : Nat := 0
  firstLost : Nat := 0
  /-- Grid position from which a record may begin: start or re-arm. -/
  armAt : Nat := 0
  /-- Grid position of the ARM, and the last frame seen. -/
  armed : Nat := 0
  lastFrame : Option Nat := none
  /-- Grid position at which a start pulse, or beat 0 at the pins, reached the unit (R202). -/
  startAt : Option Nat := none
  /-- Matrix pulses at the trigger and qualifier inputs that belong to no frame yet: grid position and source. -/
  trigPulses : List (Nat × Nat) := []
  qualPulses : List Nat := []
  qualLatched : Bool := false
  /-- Level trigger primed below, above (R204), and whether the previous frame's result lay inside the window. -/
  primedLo : Bool := false
  primedHi : Bool := false
  prevInside : Option Bool := none
  /-- What the 16 KiB write buffer holds, in 1/12,500 byte, and the grid position of its last reckoning (R209). -/
  buf : Nat := 0
  bufTick : Nat := 0
  /-- A converter that the unit uses has changed, and the unit has not yet judged its result intervals (R211). -/
  changed : Bool := false
  deriving DecidableEq, Repr

/-! ## Metrology (R214 to R226) -/

/-- Seal states (R221). -/
inductive SealState where
  | sealed | session | locked
  deriving DecidableEq, Repr

/-- A readback register set MET_RB(p) (R216, R217). -/
structure Readback where
  sel : Word := 0
  avg : BitVec 4 := 0
  done : Bool := false
  refused : Bool := false
  busy : Bool := false
  errCode : Nat := 0
  value : Word := 0
  seq : Word := 0
  flags : BitVec 8 := 0
  tick : BitVec 64 := 0
  tag : BitVec 64 := 0
  deriving DecidableEq, Repr

/-- The metrology die and the digital die's mirror. -/
structure Met where
  mirrorBad : Bool := false
  /-- The mirror has been loaded and accepted since start-up (R219), and its failed tries. -/
  mirrorOk : Bool := false
  mirrorTries : Nat := 0
  /-- Mirror words that differ from the factory store. -/
  mirror : Tab Word := []
  storeBad : Bool := false
  refDisagree : Bool := false
  refDiff : Word := 0
  aborted : Bool := false
  authFail : Nat := 0
  sealState : SealState := .sealed
  sealCnt : Word := 0
  labId : Word := 0
  calTime : BitVec 48 := 0
  tableDigest : BitVec 256 := Config.storeDigest []
  sealKey : BitVec 256 := Config.factorySealKey
  /-- The store and the session's shadow: words that differ from the factory store. -/
  store : Tab Word := []
  shadow : Tab Word := []
  newKeyWords : Tab Word := []
  resp : Tab Word := []
  nonce : BitVec 128 := 0
  nonceUsed : Bool := true
  /-- CAL_EN pin level as read (R368), and whether its input has left its band. -/
  calEn : Bool := false
  calEnArmed : Bool := false
  /-- Blocks since the metrology die's reset (R224). -/
  blockSeq : Nat := 0
  running : Bool := true
  /-- The die's supplies have been removed since it last ran (R223). -/
  supplyLost : Bool := false
  /-- The CRC_ERR of the next frame's status byte (R222), the last frame's response bytes. -/
  crcErr : Bool := false
  response : List Byte := []
  rb : Tab Readback := []
  /-- Readback requests in the order the converter serves them (R217): port, MET_RB_SEL and AVG as they were queued, and the
  tick the one in service began. Each entry ends with the tick of its START write. -/
  rbQueue : List (Nat × Word × Nat × Nat) := []
  rbStart : Nat := 0
  deriving DecidableEq, Repr

/-! ## Window monitors (R227 to R240) -/

/-- Live code of a monitor (R233). -/
inductive MonCode where
  | inside | high | low | unsettled
  deriving DecidableEq, Repr

/-- A window monitor. -/
structure Mon where
  assign : MonAssign := {}
  cfg : Word := 0
  upper : Word := 0x40D00000
  lower : Word := 0
  rampStart : Word := 0
  rampEnd : Word := 0
  rampOfs : Word := 0x3DCCCCCD
  slope : BitVec 16 := 0
  tripHi : Bool := false
  tripLo : Bool := false
  /-- Instants, by State.mono, of the latest trips: a clear of the same tick leaves the bit set (R234). -/
  hiAt : Option Nat := none
  loAt : Option Nat := none
  rampDone : Bool := false
  code : MonCode := .unsettled
  settled : Bool := false
  /-- Tick at which blanking ends (R232). -/
  blankEnd : Option Nat := none
  period : Word := 1000
  /-- End tick of the TIMER period in progress (R235, R236). -/
  periodEnd : Nat := 0
  /-- A ramp has started since EN was set, its steps so far, and the grid position of its start or last step (R230). -/
  ramping : Bool := false
  rampAt : Nat := 0
  rampN : Nat := 0
  /-- Upper and lower comparator as last seen. -/
  isHigh : Bool := false
  isLow : Bool := false
  deriving DecidableEq, Repr

/-! ## Host ports and jobs (R263 to R280) -/

/-- Where a job stands (R35, R268). -/
inductive JobPhase where
  | queued | running | ended
  deriving DecidableEq, Repr

/-- A job in flight. -/
structure Job where
  tag : BitVec 16 := 0
  sqIndex : Nat := 0
  words : List Word := []
  phase : JobPhase := .queued
  status : Nat := 0
  detail : Nat := 0
  result : Nat := 0
  /-- Bytes, words or blocks done so far. -/
  done : Nat := 0
  /-- Order in which the port's jobs ended (R270). -/
  endNo : Nat := 0
  /-- Tick of the start of the job's operation. -/
  startTick : Nat := 0
  /-- Of an APPLY, what its fetch decided and took (R258, R259): reason SPAN or PARTITION or 0, items, and an OVF seen. -/
  refuse : Nat := 0
  taken : List (Word × Word) := []
  takenOvf : Bool := false
  deriving DecidableEq, Repr

/-- A host port: link, rings, jobs, status registers. -/
structure Port where
  linkUp : Bool := false
  width : BitVec 5 := 0
  speed : BitVec 4 := 0
  en : Bool := false
  orphan : Bool := false
  quiescing : Bool := false
  sqBase : BitVec 64 := 0
  sqSize : BitVec 13 := 0
  sqTail : BitVec 12 := 0
  sqHead : BitVec 12 := 0
  cqBase : BitVec 64 := 0
  cqSize : BitVec 13 := 0
  cqHead : BitVec 12 := 0
  cqTail : BitVec 12 := 0
  cqPhase : Bool := true
  nqBase : BitVec 64 := 0
  nqSize : BitVec 13 := 0
  nqHead : BitVec 12 := 0
  nqTail : BitVec 12 := 0
  nqPhase : Bool := true
  nqOvf : Bool := false
  nqDrop : Cnt48 := {}
  cfgErr : Bool := false
  dbErr : Bool := false
  unmapped : Bool := false
  partViol : Bool := false
  badSize : Bool := false
  violAddr : BitVec 64 := 0
  /-- Jobs in flight, in submission order, and jobs ended so far. -/
  jobs : List Job := []
  ends : Nat := 0
  /-- What the device has written to the port's host memory by DMA. -/
  hostMem : Tab Byte := []
  /-- Messages sent on MSI-X vectors 0, 1 and 2 (R271, R275). -/
  msix : Tab Nat := []
  deriving DecidableEq, Repr

/-- A reader's holding registers (R11, R301, R391), its held _LO values (R392) and its store-window selection (R393);
`data` is what its last read returned. -/
structure Reader where
  hold : Word := 0
  tag : Option Nat := none
  timeHeld : Bool := false
  timeSec : BitVec 48 := 0
  timeFrac : BitVec 16 := 0
  timeTick : BitVec 64 := 0
  prodLo : Tab Word := []
  rdLo : Tab Word := []
  winSel : Nat := 0
  data : Word := 0
  bytes : List Byte := []
  deriving DecidableEq, Repr

/-! ## Image control, staging and APPLY (R241 to R262) -/

/-- States of the staging slot (R245). -/
inductive StgState where
  | empty | loading | loaded | checking | checked | refused | committing
  deriving DecidableEq, Repr

/-- A cut point (R258). -/
inductive CutPoint where
  | none | flag | beat (n : Nat) | epoch (e : Nat)
  deriving DecidableEq, Repr

/-- An APPLY that has been taken from its areas: validated, then armed, landing gang by gang (R258 to R260). -/
structure Apply where
  port : Nat := 0
  tag : BitVec 16 := 0
  cut : CutPoint := .none
  gangs : List Nat := []
  items : List (Word × Word) := []
  armed : Bool := false
  armTick : Nat := 0
  landed : Tab Nat := []
  ended : List Nat := []
  deriving DecidableEq, Repr

/-- IMG_APPLY_STATUS(p) and IMG_APPLY_BEAT(p) (R260). -/
structure ApplyStat where
  state : Nat := 0
  reason : Nat := 0
  code : Nat := 0
  item : Nat := 0
  bench : Nat := 0
  beat : Nat := 0
  deriving DecidableEq, Repr

/-- IMG_STG registers of one port (R256). -/
structure StgPort where
  target : Word := 0
  value : Word := 0
  err : Bool := false
  deriving DecidableEq, Repr

/-- The IMG block and the image slots. -/
structure Img where
  srcFlash : Bool := false
  loadAddr : BitVec 64 := 0
  loadLen : Word := 0
  /-- Bytes and address as the LOAD in progress took them, and whether its source is the flash. -/
  copyLen : Nat := 0
  copyAddr : Nat := 0
  copyFlash : Bool := false
  activeSlot : Bool := false
  activeValid : Bool := false
  badCmd : Bool := false
  stg : StgState := .empty
  reason : Nat := 0
  dCode : Nat := 0
  dIndex : Nat := 0
  value : Word := 0
  limit : Word := 0
  commitNq : BitVec 4 := 0
  actHash : BitVec 64 := 0
  projPwr : Word := 0
  projTj : Word := 0
  projRegion : Nat := 0
  /-- The container in the staging slot, the length copied, and the container of the active slot. -/
  staged : Option Container := none
  active : Option Container := none
  commitTick : Nat := 0
  /-- The active image is still to be reactivated from its slot (R331, R366). -/
  reload : Bool := false
  stgPort : Tab StgPort := []
  apply : Tab ApplyStat := []
  applies : List Apply := []
  deriving DecidableEq, Repr

/-! ## Serial ports (R281 to R298) -/

/-- A queued PSPI frame: its number, its source (0 host, 1 pattern, 2 safe list, 3 flash burst) and queueing tick. -/
structure PspiReq where
  frame : Nat
  src : Nat
  tick : Nat
  /-- Order of service within a tick (R293): lead bench, then 64 for the administrator, 65 for MSPI. -/
  rank : Nat
  deriving DecidableEq, Repr

/-- The SPIM block: MSPI status and counters, PSPI. -/
structure Spim where
  overclk : Bool := false
  rdonly : Bool := false
  prevErr : Bool := false
  frameErr : Cnt48 := {}
  crcErr : Cnt48 := {}
  /-- Bytes of the last MSPI response on MSPI_SDO. -/
  response : List Byte := []
  /-- Flags of the frame in progress: UNMAPPED, DENIED, OFFLINE. -/
  fUnmapped : Bool := false
  fDenied : Bool := false
  fOffline : Bool := false
  qfullSeen : Bool := false
  discardSeen : Bool := false
  cutSeen : Bool := false
  err : Bool := false
  errCode : Nat := 0
  queue : List PspiReq := []
  /-- The frame in progress, the ticks on which its select falls and rises, and, as they stood at the fall, CAPTURE and its
  select's configuration and delays (R291, R296). -/
  cur : Option PspiReq := none
  curStart : Nat := 0
  curEnd : Nat := 0
  curCut : Bool := false
  curCap : Bool := false
  curCfg : Word := 0
  curDly : Word := 0
  /-- The tick from which read bursts of the boot flash follow one another, while a LOAD reads it (R297). -/
  flashFrom : Option Nat := none
  /-- Bytes that the bursts have still to read from then on. -/
  flashLeft : Nat := 0
  /-- Tick from which the next select may fall: 40 ns after the last rose (R290). -/
  idleFrom : Nat := 0
  /-- The units sent of the frame in progress, as its words stood when its select fell (R291). -/
  sent : List (Nat × Word) := []
  qdLast : Nat := 0
  qdMax : Nat := 0
  qdrop : Cnt48 := {}
  rxSrc : Nat := 0
  rxFrame : Nat := 0
  rxTick : Nat := 0
  rx : Tab Word := []
  frmInc : Bool := false
  frmAddr : Nat := 0
  frmPast : Bool := false
  table : Tab Word := []
  safe : Tab Word := []
  selCfg : Tab Word := []
  selDly : Tab Word := []
  /-- The safe list is being sent (R296). -/
  safeOn : Bool := false
  deriving DecidableEq, Repr

/-! ## Time, clocks, power -/

/-- A time comparator (R310). -/
structure Cmp where
  sec : BitVec 48 := 0
  ns : BitVec 30 := 0
  armed : Bool := false
  fired : Bool := false
  late : Bool := false
  action : Nat := 0
  part : Nat := 0
  evtBenches : List Nat := []
  /-- The SCHEDULE job that armed it, its mask, and the tick of arming. -/
  port : Nat := 0
  tag : BitVec 16 := 0
  mask : BitVec 64 := 0
  armTick : Nat := 0
  armLate : Bool := false
  deriving DecidableEq, Repr

/-- A time capture register (R313). -/
structure Cap where
  sec : BitVec 48 := 0
  ns : BitVec 30 := 0
  valid : Bool := false
  ovr : Bool := false
  /-- Ticks on which VALID and OVR were last set: a clear of the same tick leaves the bit set (R390). -/
  validAt : Option Nat := none
  ovrAt : Option Nat := none
  deriving DecidableEq, Repr

/-- A PTP exchange in progress (R304): t1, t2, t3 and the correction received with t1, in ns. -/
structure Exchange where
  t1 : Option Int := none
  /-- A Delay_Resp that came before the Follow_Up: t4 and its correction. -/
  resp : Option (Int × Int) := none
  t2 : Int := 0
  t3 : Int := 0
  corr1 : Int := 0
  id : PtpId := ⟨0, 0, 0⟩
  deriving DecidableEq, Repr

/-- The time unit (R299 to R313). Local time is `sec` and `nsq`, the latter in 2^−48 ns. -/
structure Time where
  sec : Nat := 0
  nsq : Nat := 0
  /-- Stretches of local time that ran at one rate, newest first: the grid position at which each ended, local time there and
  its units a tick (R300). -/
  runs : List (Nat × Nat × Nat) := []
  rate : Int := 0
  /-- Servo integral, in units of 1 / (5^9 × 2^73). -/
  integ : Int := 0
  src : BitVec 2 := 0
  ppsOut : Bool := false
  ppsLow : Bool := false
  stepArm : Bool := true
  disagree : Bool := false
  refused : Bool := false
  rateLimit : Bool := false
  master : Bool := false
  lost : Bool := true
  refcnt : Nat := 0
  quality : Nat := 0
  jumpLim : Word := 1000
  /-- Offsets in 2^−48 ns. -/
  ofsLast : Int := 0
  ofsRefused : Int := 0
  lockWin : BitVec 16 := 100
  ki : BitVec 4 := 4
  kp : BitVec 4 := 1
  domain : BitVec 8 := 0
  tmo : BitVec 4 := 3
  transport : Bool := false
  phy : Bool := false
  priId : BitVec 64 := 0
  priPort : BitVec 16 := 0
  bakId : BitVec 64 := 0
  bakPort : BitVec 16 := 0
  ppsSec : BitVec 48 := 0
  refuseCnt : Cnt48 := {}
  /-- Accepted offsets in a row within LOCK_WIN, and whether DISAGREE has been posted. -/
  goodRun : Nat := 0
  exch : Option Exchange := none
  /-- Sync interval of the master as code k, 2^(k − 7) s (S of R306). -/
  syncCode : Nat := 7
  /-- The last Announce of the primary and of the backup: instant, by State.mono, and announce interval as code k,
  2^(k − 7) s (R303). -/
  priAnn : Option (Nat × Nat) := none
  bakAnn : Option (Nat × Nat) := none
  /-- Instant, by State.mono, of the last accepted offset or armed step, and the tick on which the PPS pulse ends. -/
  lastAccept : Nat := 0
  ppsEnd : Nat := 0
  cmps : Tab Cmp := []
  caps : Tab Cap := []
  deriving DecidableEq, Repr

/-- CLKOUT output i (R327 to R329). -/
structure ClkOut where
  en : Bool := false
  div : BitVec 10 := 64
  coarse : BitVec 10 := 0
  fine : BitVec 6 := 0
  /-- The output toggles, and the tick on which its divider was last set to phase 0. -/
  running : Bool := false
  phase0 : Nat := 0
  /-- The divider instants, in VCO periods, of the first rising edge and of the last falling edge (R328). -/
  riseAt : Nat := 0
  stopAt : Nat := 0
  deriving DecidableEq, Repr

/-- Device ticks and epochs (R23, R299), clocks (R323 to R329). -/
structure Clk where
  devTick : Nat := 0
  epoch : Nat := 0
  phase : Nat := 0
  pllLock : Bool := false
  /-- The main PLL has locked since it was last off: the core clock runs (R343). -/
  ran : Bool := false
  refOk : Bool := false
  unlockSeen : Bool := false
  refLossSeen : Bool := false
  err : Bool := false
  errCode : Nat := 0
  lockN : BitVec 16 := 256
  lockWin : BitVec 6 := 8
  /-- N and WIN of the main PLL's present lock acquisition (R324). -/
  acqN : BitVec 16 := 256
  acqWin : BitVec 6 := 8
  /-- Always-on cycles since the main PLL was last locked, and the error of the holdover counter so far, in 2^−48 ns
  (R300, R406). -/
  holdN : Nat := 0
  holdErr : Int := 0
  /-- Always-on cycles in which the main PLL was not locked, since the cold reset: with the ticks they measure the quiet period of
  FAULT (R351, R354). -/
  offCycles : Nat := 0
  outs : Tab ClkOut := []
  deriving DecidableEq, Repr

/-- The guyline and SYNC (R314 to R320). -/
structure Guy where
  syncSe : Bool := false
  syncEvery : Bool := false
  /-- The first valid edge since the PLL lock has been applied (ONCE). -/
  syncDone : Bool := false
  g6React : BitVec 2 := 0
  g6Out : Bool := false
  strobeMaster : Bool := false
  g0Part : Bool := true
  /-- Levels of the lines as the other devices leave them; the lines read low where this device pulls them too. -/
  level : BitVec 8 := 0xFF
  descHash : BitVec 64 := 0
  descWritten : Bool := false
  descStepping : BitVec 8 := 0
  qmin : BitVec 2 := 0
  req : Bool := false
  agreeTmo : Word := 10000
  state : Nat := 0
  reason : Nat := 0
  startEpoch : BitVec 64 := 0
  syncTrim : BitVec 13 := 0
  syncSlip : Bool := false
  syncSeen : Bool := false
  slipCnt : Cnt48 := {}
  g6Seen : Bool := false
  g6Driving : Bool := false
  /-- GUY[0] stays released since a start was refused at its timeout, until the next start waits (R319; log 100). -/
  released0 : Bool := false
  /-- This device pulls GUY[1] low (R316). -/
  pull1 : Bool := false
  strobeEnd : Nat := 0
  /-- The waiting RUN STARTs with GUY = 1: port, tag, tick of their start. -/
  waiting : List (Nat × BitVec 16 × Nat) := []
  /-- Tick since which GUY[0] has read high with the agreement satisfied (R318). -/
  g0HighSince : Option Nat := none
  deriving DecidableEq, Repr

/-- Power states (R330). -/
inductive PState where
  | off | aon | idle | ready | run | transit | fault
  deriving DecidableEq, Repr

/-- Power control and the thermal model (R330 to R339). Model states are binary32 words (log 20). -/
structure Pwr where
  pstate : PState := .aon
  target : Nat := 1
  err : Bool := false
  errCode : Nat := 0
  wakeSec : BitVec 48 := 0
  wakeNs : BitVec 30 := 0
  wakeArm : Bool := false
  fired : Bool := false
  wtarget : Nat := 3
  tcool : Word := 0x42340000
  cls : Nat := 0
  tripValid : Bool := false
  tripRegion : Nat := 0
  tripTj : Word := 0
  p : Tab Word := []
  /-- x_k1 to x_k3, by 4 × k + i. -/
  x : Tab Word := []
  tj : Tab Word := []
  tjMax : Tab Word := []
  total : Word := 0
  /-- The digital die is powered and out of reset. -/
  dieUp : Bool := false
  /-- HBM stacks in self-refresh. -/
  selfRefresh : Bool := true
  /-- Regions whose source the thermal model holds asserted (R338). -/
  hot : List Nat := []
  deriving DecidableEq, Repr

/-! ## Faults, reset, security -/

/-- The fault collector (R340 to R357). -/
structure Flt where
  overflow : Bool := false
  err : Bool := false
  ftLatched : Bool := false
  faultN : Bool := false
  siteSel : BitVec 7 := 0
  firstValid : Bool := false
  firstRail : Bool := false
  firstSub : Nat := 0
  firstClass : Nat := 0
  firstSrc : Nat := 0
  firstTick : BitVec 64 := 0
  firstSec : BitVec 48 := 0
  firstNs : BitVec 30 := 0
  /-- The collector's cycle of the latched detection (R343, R345). -/
  firstCycle : Nat × Nat × Bool := (0, 0, false)
  cntCe : Cnt48 := {}
  cntUc : Cnt48 := {}
  cntFt : Cnt48 := {}
  recFt : Nat := 0
  quiet : Tab Nat := []
  quietFt : Nat := 100000
  limFt : Nat := 4
  limUc : Nat := 16
  /-- Sources asserted now, true where by a rail fault, and sources seen. -/
  active : Tab Bool := []
  seen : Tab Bool := []
  /-- Classes above the default. -/
  cls : Tab Nat := []
  /-- Sources asserted while the core clock is stopped and they are not sampled, true where a rail fault (R343). -/
  unsampled : Tab Bool := []
  /-- Sources in `active` whose pair reads deasserted since, while they are not sampled (R343). -/
  dropped : List Nat := []
  /-- Start of the quiet period of FAULT: the later of the end of the FT reaction and the last FT source's deassertion, by
  State.mono (R351). -/
  ftFrom : Nat := 0
  /-- The fault state is being left, and the main PLL has still to lock (R354). -/
  leaving : Bool := false
  deriving DecidableEq, Repr

/-- Start-up phases (R362 to R366). -/
inductive Boot where
  | held | fuses | up | stuck
  deriving DecidableEq, Repr

/-- JTAG instructions (R383). -/
inductive Jtag where
  | bypass | idcode | sample | extest | clamp | highz | extestPulse | extestTrain | rma
  deriving DecidableEq, Repr

/-- TOP: resets, straps, boot, inputs and Contact Watch (R358 to R373, R389, R393). -/
structure Top where
  /-- PORST_N low, RESET_N low (pin, TOP_RESET or boundary test). -/
  porstLow : Bool := false
  resetLow : Bool := false
  /-- The pin RESET_N is low: PORST_N low does not end that (R358). -/
  resetPin : Bool := false
  phase : Boot := .held
  /-- READY has been reached since the cold reset (R363). -/
  wasReady : Bool := false
  bifStrap : BitVec 2 := 0
  adminStrap : BitVec 2 := 0
  adminPort : Nat := 0
  causeCold : Bool := true
  causeWarm : Bool := false
  causeSoft : Bool := false
  bootCode : Nat := 0
  /-- A boot from flash is due since the last reset (R365). -/
  bootDue : Bool := true
  /-- The boot sequence waits for a step of the image commands (R365). -/
  booting : Bool := false
  inArmed : BitVec 13 := 0
  /-- Levels of the Schmitt inputs as read (R368). -/
  trigLevel : BitVec 4 := 0
  cwRun : Bool := false
  cwStart : Nat := 0
  cwScanned : Bool := false
  cwScans : Word := 0
  cwMask : Tab Word := []
  cwClass : Tab Nat := []
  cwV : Tab Word := []
  cwOk : Bool := false
  /-- Mirror loaded or given up since READY (R364). -/
  mirrorDone : Bool := false
  readyTick : Nat := 0
  jtag : Jtag := .idcode
  jtagHold : Bool := false
  /-- The boundary register and the TDO bits of the last shift. -/
  boundary : List Bool := []
  tdo : List Bool := []
  deriving DecidableEq, Repr

/-- A key slot (R374). -/
structure KeySlot where
  state : Nat := 0
  khash : BitVec 384 := 0
  ikey : BitVec 256 := 0
  deriving DecidableEq, Repr

/-- The SEC block (R374 to R386). -/
structure Sec where
  err : Bool := false
  errCode : Nat := 0
  busy : Bool := false
  busySlot : Nat := 0
  rngFail : Bool := false
  rma : Bool := false
  rmaPending : Bool := false
  slotSel : BitVec 2 := 0
  slots : Tab KeySlot := []
  provHash : Tab Word := []
  provKey : Tab Word := []
  /-- The per-boot key (R380), none before it is drawn and when erased, and the draws so far. -/
  hbmKey : Option (BitVec 512) := none
  keyDraws : Nat := 0
  /-- The nonce that the last RMA_UNLOCK put out (R385). -/
  nonce : BitVec 128 := 0
  testOpen : Bool := false
  deriving DecidableEq, Repr

/-! ## HBM -/

/-- HBM content that was written under a key now gone (R381): the key, the bytes in the form of State.hbm, and the region map
then, which places them in the stacks (R34). -/
structure HbmPast where
  key : BitVec 512
  cells : List Host.Cell := []
  regions : List Region := []
  deriving DecidableEq, Repr

/-! ## The machine -/

/-- The state of the ZT512 and the commands waiting for it, first in, first out. -/
structure State where
  pending : List Instr := []
  /-- Index of the next free value (Config.freeNat, log 4): the model's own. -/
  freeCtr : Nat := 0
  clk : Clk := {}
  time : Time := {}
  guy : Guy := {}
  pwr : Pwr := {}
  top : Top := {}
  flt : Flt := {}
  sec : Sec := {}
  img : Img := {}
  spim : Spim := {}
  met : Met := {}
  trigx : Trigx := {}
  benches : Tab Bench := []
  gangs : Tab Gang := []
  sites : Tab Site := []
  raes : Tab Rae := []
  acqs : Tab Acq := []
  mons : Tab Mon := []
  monErr : Bool := false
  monErrCode : Nat := 0
  monErrAddr : Nat := 0
  ports : Tab Port := []
  readers : Tab Reader := []
  /-- HBM region map and partition to port map of the image in force (R34, R276). -/
  regions : List Region := []
  partPort : Tab Nat := []
  enginePart : Tab Nat := []
  /-- HBM bytes by HBM byte address, as their difference from what the byte reads as where nothing has been written under the
key in force; State.hbmAt is the byte that a read returns (R381; log 3). -/
  hbm : List Host.Cell := []
  /-- What the stacks hold from under keys that are gone, newest first (R381). -/
  hbmPast : List HbmPast := []
  deriving DecidableEq, Repr

/-- The machine right after a cold reset (R359, R362): PORST_N has risen, the state is AON, fuse load has not yet
begun, and every register holds its reset value. -/
def State.reset : State := {}

/-- Reasons for a command to stop the machine. No meaning of this model ends in a fault: every command the spec lists has
an effect or, where nothing is there for it to act on, none (log 2). -/
inductive Fault where
  /-- Raised by nothing: the type must not be empty to be printed and compared. Safe. -/
  | none
  deriving DecidableEq, Repr

/-- Reasons for a command to have no meaning. -/
inductive Refusal where
  /-- Raised by a dispatch arm whose command has no meaning yet. Safe: the run ends. -/
  | notModelled (mnemonic : String)
  deriving DecidableEq, Repr

end Sys2Proof.Machine
end

