-- ==== Sys2Proof/Machine/Ops.lean ====
section
/-! DEFINITION. The operations that every block shares: access to the parts of the state, owners (R276), free values, counters (R128), event inputs (R120), notices (R275), the clock (R23, R299, R300) and the trigger matrix (R32, R193 to R197). -/

namespace Sys2Proof.Machine

/-! ## Parts of the state -/

/-- The part at an index of each table, and the state with it changed. -/
def State.bench (s : State) (b : Nat) : Bench := tget {} s.benches b
def State.modBench (b : Nat) (f : Bench → Bench) (s : State) : State := { s with benches := tmod {} s.benches b f }
def State.modSeq (b : Nat) (f : Seq → Seq) (s : State) : State := s.modBench b fun x => { x with seq := f x.seq }
def State.modStrm (b : Nat) (f : Strm → Strm) (s : State) : State := s.modBench b fun x => { x with strm := f x.strm }
def State.modApg (b : Nat) (f : Apg → Apg) (s : State) : State := s.modBench b fun x => { x with apg := f x.apg }
def State.modTmg (b : Nat) (f : Tmg → Tmg) (s : State) : State := s.modBench b fun x => { x with tmg := f x.tmg }
def State.modPe (b : Nat) (f : PeWin → PeWin) (s : State) : State := s.modBench b fun x => { x with pe := f x.pe }
def State.chan (s : State) (b l : Nat) : Chan := tget {} (s.bench b).chans l
def State.modChan (b l : Nat) (f : Chan → Chan) (s : State) : State :=
  s.modBench b fun x => { x with chans := tmod {} x.chans l f }
def State.lane (s : State) (b l : Nat) : LaneP := tget {} (s.bench b).lanes l
def State.modLane (b l : Nat) (f : LaneP → LaneP) (s : State) : State :=
  s.modBench b fun x => { x with lanes := tmod {} x.lanes l f }
def State.gang (s : State) (g : Nat) : Gang := tget {} s.gangs g
def State.modGang (g : Nat) (f : Gang → Gang) (s : State) : State := { s with gangs := tmod {} s.gangs g f }
def State.site (s : State) (i : Nat) : Site := tget {} s.sites i
def State.modSite (i : Nat) (f : Site → Site) (s : State) : State := { s with sites := tmod {} s.sites i f }
def State.rae (s : State) (e : Nat) : Rae := tget {} s.raes e
def State.modRae (e : Nat) (f : Rae → Rae) (s : State) : State := { s with raes := tmod {} s.raes e f }
def State.acq (s : State) (u : Nat) : Acq := tget {} s.acqs u
def State.modAcq (u : Nat) (f : Acq → Acq) (s : State) : State := { s with acqs := tmod {} s.acqs u f }
def State.mon (s : State) (m : Nat) : Mon := tget {} s.mons m
def State.modMon (m : Nat) (f : Mon → Mon) (s : State) : State := { s with mons := tmod {} s.mons m f }
def State.port (s : State) (p : Nat) : Port := tget {} s.ports p
def State.modPort (p : Nat) (f : Port → Port) (s : State) : State := { s with ports := tmod {} s.ports p f }
def State.reader (s : State) (i : Nat) : Reader := tget {} s.readers i
def State.modReader (i : Nat) (f : Reader → Reader) (s : State) : State :=
  { s with readers := tmod {} s.readers i f }
def State.cmp (s : State) (i : Nat) : Cmp := tget {} s.time.cmps i
def State.modCmp (i : Nat) (f : Cmp → Cmp) (s : State) : State :=
  { s with time := { s.time with cmps := tmod {} s.time.cmps i f } }
def State.modTime (f : Time → Time) (s : State) : State := { s with time := f s.time }
def State.modClk (f : Clk → Clk) (s : State) : State := { s with clk := f s.clk }
def State.modGuy (f : Guy → Guy) (s : State) : State := { s with guy := f s.guy }
def State.modPwr (f : Pwr → Pwr) (s : State) : State := { s with pwr := f s.pwr }
def State.modTop (f : Top → Top) (s : State) : State := { s with top := f s.top }
def State.modFlt (f : Flt → Flt) (s : State) : State := { s with flt := f s.flt }
def State.modSec (f : Sec → Sec) (s : State) : State := { s with sec := f s.sec }
def State.modImg (f : Img → Img) (s : State) : State := { s with img := f s.img }
def State.modSpim (f : Spim → Spim) (s : State) : State := { s with spim := f s.spim }
def State.modMet (f : Met → Met) (s : State) : State := { s with met := f s.met }
def State.modTrigx (f : Trigx → Trigx) (s : State) : State := { s with trigx := f s.trigx }

/-- A change made for every index of a list, in order. -/
def State.each (is : List Nat) (f : Nat → State → State) (s : State) : State := is.foldl (fun s i => f i s) s

/-- The next free value (log 4). -/
def State.free (s : State) : Nat × State := (Config.freeNat s.freeCtr, { s with freeCtr := s.freeCtr + 1 })

/-- The device tick number (R299). -/
def State.now (s : State) : Nat := s.clk.devTick

/-- Position in the epochs, 256 × epoch number + tick within the epoch (R198). -/
def State.grid (s : State) : Nat := 256 * s.clk.epoch + s.clk.phase

/-! ## Gangs, sites, partitions and owners -/

/-- The running states of R67: codes 0x2 to 0x7 (R128). -/
def SeqState.running : SeqState → Bool
  | .issue | .wait | .sync | .hstall | .keepalive | .drain => true
  | _ => false

/-- ARMED or running. -/
def SeqState.busy (q : SeqState) : Bool := q == .armed || q.running

/-- The gang that holds a bench. -/
def State.gangOf (s : State) (b : Nat) : Option Nat := (s.gangs.find? fun p => p.2.cfg.benches.contains b).map (·.1)

/-- The benches of a gang. -/
def State.gangBenches (s : State) (g : Nat) : List Nat := (s.gang g).cfg.benches

/-- The lead bench of a gang: its lowest-numbered bench (R117). -/
def State.lead (s : State) (g : Nat) : Nat := ((s.gangBenches g).min?).getD 0

/-- The bench whose registers hold what a gang shares (R117). -/
def State.leadOf (s : State) (b : Nat) : Nat := ((s.gangOf b).map s.lead).getD b

/-- The sequencer state of a gang, that of its lead bench. -/
def State.gangState (s : State) (g : Nat) : SeqState := (s.bench (s.lead g)).seq.state

/-- A bench is running (R67). -/
def State.running (s : State) (b : Nat) : Bool := (s.bench b).seq.state.running

/-- Every gang of the structure in force. -/
def State.gangIxs (s : State) : List Nat := s.gangs.map (·.1)

/-- Some bench is ARMED or running. -/
def State.anyBusy (s : State) : Bool := s.gangIxs.any fun g => (s.gangState g).busy

/-- Some bench is running. -/
def State.anyRunning (s : State) : Bool := s.gangIxs.any fun g => (s.gangState g).running

/-- The lanes of a bench that a site holds. -/
def laneList : SiteLanes → List Nat
  | .all => List.range 8
  | .lo => [0, 1, 2, 3]
  | .hi => [4, 5, 6, 7]

/-- The (bench, lane) pairs of a site. -/
def Site.chans (x : Site) : List (Nat × Nat) := x.cfg.benches.flatMap fun b => (laneList x.cfg.lanes).map fun l => (b, l)

/-- Every site of the structure in force. -/
def State.siteIxs (s : State) : List Nat := s.sites.map (·.1)

/-- The sites of a gang. -/
def State.sitesOfGang (s : State) (g : Nat) : List Nat := s.siteIxs.filter fun i => (s.site i).cfg.gang = g

/-- The site that holds lane l of bench b. -/
def State.siteOf (s : State) (b l : Nat) : Option Nat :=
  (s.sites.find? fun p => p.2.cfg.benches.contains b && (laneList p.2.cfg.lanes).contains l).map (·.1)

/-- The sites that hold a lane of bench b. -/
def State.sitesOfBench (s : State) (b : Nat) : List Nat := s.siteIxs.filter fun i => (s.site i).cfg.benches.contains b

/-- The partition of a bench: that of its gang, and of a bench in no gang the one that the image names (R14, R16). -/
def State.benchPart (s : State) (b : Nat) : Option Nat :=
  match s.gangOf b with
  | some g => some (s.gang g).cfg.partition
  | none => (s.bench b).part

/-- The partition of a site. -/
def State.sitePart (s : State) (i : Nat) : Nat := (s.gang (s.site i).cfg.gang).cfg.partition

/-- The port that owns a partition. -/
def State.portOf (s : State) (p : Nat) : Option Nat := tfind s.partPort p

/-- The partitions that a port owns: at most one (R16). -/
def State.partsOf (s : State) (p : Nat) : List Nat := (s.partPort.filter fun x => x.2 = p).map (·.1)

/-- The owner of what belongs to partition p, when known: before the first commit the administrator port owns
everything (R276). -/
def State.ownerOf (s : State) (p : Option Nat) : Option Nat :=
  if s.img.activeValid then p.bind s.portOf else some s.top.adminPort

def State.benchOwner (s : State) (b : Nat) : Option Nat := s.ownerOf (s.benchPart b)
def State.unitOwner (s : State) (u : Nat) : Option Nat := s.ownerOf (some (s.acq u).cfg.partition)
def State.monOwner (s : State) (m : Nat) : Option Nat := s.ownerOf (some (s.mon m).assign.partition)
/-- An engine's partition is that of the site it serves (R16), and of an engine without a site the one the image names. -/
def State.raePart (s : State) (e : Nat) : Option Nat :=
  if (s.rae e).cfg.assigned then some (s.sitePart (s.rae e).cfg.site) else tfind s.enginePart e
def State.raeOwner (s : State) (e : Nat) : Option Nat := s.ownerOf (s.raePart e)

/-- The port exists under the lane split (R263). -/
def State.present (s : State) (p : Nat) : Bool :=
  match s.top.bifStrap.toNat with
  | 1 => p < 2
  | 2 => p = 0
  | _ => p < 4

/-- The index of a reader's holding registers. -/
def whoIx : Who → Nat
  | .port p => p.val
  | .mspi => 4

/-- The digital die's registers beyond the always-on ones are powered (R330, R395). -/
def State.powered (s : State) : Bool :=
  match s.pwr.pstate with
  | .ready | .run | .fault => true
  | _ => false

/-- The device is in READY or RUN. -/
def State.ready (s : State) : Bool := s.pwr.pstate == .ready || s.pwr.pstate == .run

/-! ## Counters (R128) -/

/-- The largest count. -/
def cntMax : Nat := 2 ^ 48 - 1

/-- n counted events. -/
def Cnt48.add (c : Cnt48) (n : Nat) : Cnt48 :=
  if n = 0 then c
  else if c.count.toNat + n < cntMax then { c with count := c.count + BitVec.ofNat 48 n }
  else { count := BitVec.ofNat 48 cntMax, sat := true }

/-- The count has saturated between two values of a counter. -/
def Cnt48.rose (old new : Cnt48) : Bool := !old.sat && new.sat

/-! ## Event inputs (R117, R120) -/

/-- Event input i of bench b asserts: held once for the gang, at its lead bench. -/
def State.assertEvt (b i : Nat) (s : State) : State :=
  s.modSeq (s.leadOf b) fun q =>
    if q.evtPend.getLsbD i then { q with evtMerged := q.evtMerged ||| BitVec.ofNat 8 (2 ^ i) }
    else { q with evtPend := q.evtPend ||| BitVec.ofNat 8 (2 ^ i) }

/-! ## Local time (R7, R300) -/

/-- Units of 2^−48 ns in a second. -/
def secUnits : Nat := 1000000000 * 2 ^ 48

/-- Local time advanced by q units of 2^−48 ns. -/
def Time.advance (t : Time) (q : Nat) : Time :=
  { t with sec := (t.sec + (t.nsq + q) / secUnits) % 2 ^ 48, nsq := (t.nsq + q) % secUnits }

/-- Units of local time in one tick: 1.25 ns × (1 + RATE × 2^−38). -/
def Time.perTick (t : Time) : Nat := (5 * 2 ^ 46 + t.rate * 1280).toNat

def State.timeNs (s : State) : Nat := s.time.nsq / 2 ^ 48
/-- Local time in units of 2^−48 ns. -/
def State.local (s : State) : Nat := s.time.sec * secUnits + s.time.nsq

/-- The rate or the value of local time is about to change: the stretch that ends at the present grid position is kept. -/
def State.closeRun (s : State) : State :=
  if (s.time.runs.head?).map (·.1) = some s.grid then s
  else s.modTime fun t => { t with runs := (s.grid, s.local, t.perTick) :: t.runs }

/-- Local time at a grid position that has passed, by the stretch in which it lies (R210, R300). -/
def State.localAt (s : State) (f : Nat) : Nat :=
  match s.time.runs.reverse.find? fun r => f ≤ r.1 with
  | some r => r.2.1 - (r.1 - f) * r.2.2
  | none => s.local - (s.grid - f) * s.time.perTick

/-! ## Notices (R269, R275, R356) -/

/-- Bytes the device writes to a port's host memory. -/
def State.hostWrite (p a : Nat) (bs : List Byte) (s : State) : State :=
  s.modPort p fun x => { x with hostMem := memPutList x.hostMem a bs }

/-- One message on an MSI-X vector. -/
def State.msix (p v : Nat) (s : State) : State := s.modPort p fun x => { x with msix := tmod 0 x.msix v (· + 1) }

/-- A notice written to the notice queue of port p, or dropped and counted. A ring of SIZE entries holds SIZE − 1. -/
def State.notice (p ty src tick detail : Nat) (s : State) : State :=
  let x := s.port p
  if !s.present p then s
  else if !x.en then s.modPort p fun x => { x with nqDrop := x.nqDrop.add 1 }
  else
    let size := x.nqSize.toNat
    let tail := x.nqTail.toNat
    let nx := (tail + 1) % size
    if nx = x.nqHead.toNat then s.modPort p fun x => { x with nqDrop := x.nqDrop.add 1, nqOvf := true }
    else
      let w0 := flag x.nqPhase 31 ||| flag x.nqOvf 30 ||| at' (ty % 256) 16 ||| wd (src % 65536)
      let ws := [w0, 0, wordOf tick 0, wordOf tick 1, wordOf s.time.sec 0, wordOf s.time.sec 1, wd s.timeNs, wd detail]
      ((s.hostWrite p (x.nqBase.toNat + 32 * tail) (wordBytes ws)).modPort p fun x =>
        { x with nqTail := BitVec.ofNat 12 nx, nqOvf := false,
                 nqPhase := if nx = 0 then !x.nqPhase else x.nqPhase }).msix p 1

/-- A notice to an owner, if there is one. -/
def State.noticeTo (p : Option Nat) (ty src tick detail : Nat) (s : State) : State :=
  match p with
  | some q => s.notice q ty src tick detail
  | none => s

/-- Event input 7 of bench b, when one of its counters has saturated; the first time since the start, with a
counter-saturated record to the owning port (R120, R173). -/
def State.gen1 (b : Nat) (c : Bool) (s : State) : State :=
  if !c then s
  else
    let s := s.assertEvt b 7
    if (s.bench b).satPosted then s
    else (s.modBench b fun x => { x with satPosted := true }).noticeTo (s.benchOwner b) 0x04 b s.now 0

/-- A notice to the administrator port. -/
def State.noticeAdmin (ty src tick detail : Nat) (s : State) : State := s.notice s.top.adminPort ty src tick detail

/-- A change of TOP_PORT_STATUS of a port, signalled on MSI-X vector 2 when it changes anything. -/
def State.portStatus (p : Nat) (f : Port → Port) (s : State) : State :=
  let t := s.modPort p f
  let a := s.port p
  let b := t.port p
  if a.unmapped = b.unmapped ∧ a.partViol = b.partViol ∧ a.badSize = b.badSize then t
  else t.msix p 2

/-! ## The trigger matrix -/

/-- The WAIT_TRIG input fires while no WAIT_TRIG is executing: event input 6 (R120). -/
def Seq.firesIdle (t src : Nat) (first : Bool) (q : Seq) : Seq :=
  let bit6 : BitVec 8 := 64
  if first then
    let g : Gen0 := { tick := t, srcs := [src], pend := q.evtPend.getLsbD 6, merged := q.evtMerged.getLsbD 6 }
    if q.evtPend.getLsbD 6 then { q with gen0 := some g, evtMerged := q.evtMerged ||| bit6 }
    else { q with gen0 := some g, evtPend := q.evtPend ||| bit6 }
  else { q with gen0 := q.gen0.map fun g => { g with srcs := g.srcs ++ [src] } }

/-- A pulse arrives at a destination on the present tick, and finds it enabled or is lost (R193 to R196, R313). first tells
the first of those that arrive there on the tick: they are one firing of a WAIT_TRIG input. -/
def State.deliver (first : Bool) (d src : Nat) (s : State) : State :=
  let t := s.now
  if !tget false s.trigx.en d then s
  else if d < 64 then
    if s.leadOf d ≠ d then s
    else if (s.bench d).seq.state = .wait then s.modSeq d fun q => { q with wtPulses := q.wtPulses ++ [(t, src)] }
    else s.modSeq d (Seq.firesIdle t src first)
  else if d < 96 then s.modAcq (d - 64) fun a => { a with trigPulses := a.trigPulses ++ [(s.grid, src)] }
  else if d < 128 then
    s.modAcq (d - 96) fun a => if a.state = .waitStart ∧ fld a.mode 6 2 = 2 ∧ a.startAt.isNone then
      { a with startAt := some s.grid } else a
  else if d < 160 then s.modAcq (d - 128) fun a => { a with qualPulses := a.qualPulses ++ [s.grid] }
  else if d < 168 then
    s.modTrigx fun x => { x with outs := tput x.outs (d - 160) { active := true, endTick := t + x.tw.toNat } }
  else
    s.modTime fun x => { x with caps := tmod {} x.caps (d - 168) fun c =>
      { sec := BitVec.ofNat 48 s.time.sec, ns := BitVec.ofNat 30 s.timeNs, valid := true, ovr := c.ovr || c.valid,
        validAt := some t, ovrAt := if c.valid then some t else c.ovrAt } }

/-- Source src pulses d ticks from now: it reaches every destination that selects it 4 ticks later (R32), where it counts if
the destination is enabled then (R194). -/
def State.pulseIn (d src : Nat) (s : State) : State :=
  s.modTrigx fun x =>
    let ds := (x.routes.filter fun r => r.2.contains src).map (·.1)
    let ps := (ds.map fun e => (s.now + d + 4, e, src)).filter fun p => !x.inflight.contains p
    { x with inflight := x.inflight ++ ps }

/-- Source src pulses now. -/
def State.pulse (src : Nat) (s : State) : State := s.pulseIn 0 src

/-! ## The clock -/

/-- n ticks pass with the main PLL locked: device ticks, epochs, local time, and the stall counters of gangs that could
not issue on them (R18, R22). -/
def State.elapse (n : Nat) (s : State) : State :=
  if n = 0 then s else
  let s := s.modClk fun c =>
    { c with devTick := c.devTick + n, epoch := c.epoch + (c.phase + n) / 256, phase := (c.phase + n) % 256 }
  let s := s.modTime fun t => t.advance (n * t.perTick)
  s.each s.gangIxs fun g s => s.each (s.gangBenches g) fun b s =>
    let x := s.bench b
    if x.seq.state = .hstall then
      let c := x.seq.hstall.add n
      (s.modSeq b fun q => { q with hstall := c }).gen1 b (x.seq.hstall.rose c)
    else if (s.gangBenches g).any (fun b => 64 ≤ (s.bench b).fifo.length) &&
        (x.seq.state == .issue || x.seq.state == .wait || x.seq.state == .sync || x.seq.state == .keepalive) then
      let c := x.seq.bpress.add (if (s.gang g).lastIssue = some (s.now - n) then n - 1 else n)
      (s.modSeq b fun q => { q with bpress := c }).gen1 b (x.seq.bpress.rose c)
    else s

/-- The clock moves to tick t, delivering on their ticks the pulses of a list; never back, and not while the main PLL is
unlocked (R325). -/
def State.passTo (t : Nat) (seen : List (Nat × Nat)) : List (Nat × Nat × Nat) → State → State
  | [], s => s.elapse (t - s.now)
  | (due, d, src) :: r, s =>
    State.passTo t ((due, d) :: seen) r ((s.elapse (due - s.now)).deliver (!seen.contains (due, d)) d src)

/-- The clock moves to tick t. -/
def State.advanceTo (t : Nat) (s : State) : State :=
  if s.clk.pllLock ∧ s.now < t then
    let (due, later) := s.trigx.inflight.partition fun p => p.1 ≤ t
    State.passTo t [] (sortOn (·.1) due) (s.modTrigx fun x => { x with inflight := later })
  else s

/-- Time since the cold reset in units of 1/32 ns, by ticks while the main PLL is locked and by always-on cycles while it is
not. -/
def State.mono (s : State) : Nat := 40 * s.now + 1000 * s.clk.offCycles

/-- The clock moves to tick 0 of epoch e. -/
def State.toEpoch (e : Nat) (s : State) : State := s.advanceTo (s.now + (256 * e - s.grid))

/-- The first epoch at least 2 epochs after a command reaches the ridgepole now (R24). -/
def State.nextCut (s : State) : Nat := (s.grid + 512 + 255) / 256

/-- Epoch e can still be named now (R24). -/
def State.inTime (s : State) (e : Nat) : Bool := s.grid + 512 ≤ 256 * e

/-- Ticks in n ns, rounded up. -/
def ticksNs (n : Nat) : Nat := ceilDiv (n * 4) 5

/-! ## HBM (R34) -/

/-- Stack number and stack-local byte offset of an HBM byte address, with the storage of the regions of a list in their order from
an offset in each stack on (R34); an address in no region stands after them in stack 0. -/
def hbmPlace : List Region → (o0 o1 a : Nat) → Nat × Nat
  | [], o0, _, a => (0, o0 + a)
  | r :: rs, o0, o1, a =>
    let d := a - r.base
    let inside := decide (r.base ≤ a) && decide (a < r.base + r.size)
    match r.place with
    | 0 => if inside then (0, o0 + d) else hbmPlace rs (o0 + r.size) o1 a
    | 1 => if inside then (1, o1 + d) else hbmPlace rs o0 (o1 + r.size) a
    | _ =>
      let k := d / 4096
      if inside then (k % 2, (if k % 2 = 0 then o0 else o1) + k / 2 * 4096 + d % 4096)
      else hbmPlace rs (o0 + r.size / 2) (o1 + r.size / 2) a

/-- What HBM byte address a reads as under a key where nothing has been written under it: the data unit of 64 bytes, as it was
encrypted under the last key that is gone, decrypted under this one with the same tweak; zero where there was none (R381;
log 3). -/
def hbmBase : List HbmPast → BitVec 512 → Nat → Byte
  | [], _, _ => 0
  | h :: r, key, a =>
    let u := a / 64 * 64
    let t := hbmPlace h.regions 0 0 u
    let old := leNat ((List.range 64).map fun i => memGet h.cells (u + i) ^^^ hbmBase r h.key (u + i))
    let cipher := Config.xtsEncrypt h.key t.1 (t.2 / 64) (BitVec.ofNat 512 old)
    (Config.xtsDecrypt key t.1 (t.2 / 64) cipher).extractLsb' (8 * (a % 64)) 8

/-- The key under which HBM is read and written now; once it is erased, what the engine then holds, which the spec leaves open. -/
def State.keyNow (s : State) : BitVec 512 := s.sec.hbmKey.getD Config.erasedKey

/-- The byte that a read of an HBM byte address returns (R381). -/
def State.hbmAt (s : State) (a : Nat) : Byte := memGet s.hbm a ^^^ hbmBase s.hbmPast s.keyNow a

/-- Bytes read and written through the encryption of the key in force. -/
def State.hbmRead (s : State) (a n : Nat) : List Byte := (List.range n).map fun i => s.hbmAt (a + i)
def State.hbmWrite (a : Nat) (bs : List Byte) (s : State) : State :=
  { s with hbm := memPutList s.hbm a (bs.zipIdx.map fun x => x.1 ^^^ hbmBase s.hbmPast s.keyNow (a + x.2)) }
def State.hbmWords (a : Nat) (ws : List Word) (s : State) : State := s.hbmWrite a (wordBytes ws)

/-- n bytes from an address become zero. -/
def State.hbmZero (a n : Nat) (s : State) : State :=
  if s.hbmPast.isEmpty then { s with hbm := s.hbm.filter fun c => !(decide (a ≤ c.1) && decide (c.1 < a + n)) }
  else s.hbmWrite a (List.replicate n 0)

/-- The per-boot key is gone, and what was written under it stays in the stacks (R359, R381, R385). -/
def State.loseKey (s : State) : State :=
  let t := { s with sec := { s.sec with hbmKey := none } }
  if s.sec.hbmKey.isNone && s.hbm.isEmpty then t
  else { t with hbm := [], hbmPast := { key := s.keyNow, cells := s.hbm, regions := s.regions } :: s.hbmPast }

/-- A per-boot key is drawn: 512 random bits (R380). -/
def State.drawKey (s : State) : State :=
  s.loseKey.modSec fun x => { x with hbmKey := some (Config.bootKey x.keyDraws), keyDraws := x.keyDraws + 1 }

/-- The region that holds an HBM byte address. -/
def State.regionOf (s : State) (a : Nat) : Option Region := s.regions.find? fun r => r.base ≤ a && a < r.base + r.size

/-- Every byte of a range lies in a region of partition p. -/
def State.rangeIn (s : State) (p a n : Nat) : Bool :=
  let rs := s.regions.filter fun r => r.partition = p
  let step (x : Nat) : Nat := (rs.filter fun r => r.base ≤ x && x < r.base + r.size).foldl
    (fun y r => max y (r.base + r.size)) x
  let reach := (List.range (rs.length + 1)).foldl (fun x _ => step x) a
  decide (a + n ≤ reach)

end Sys2Proof.Machine
end

