-- ==== Sys2Proof/Machine/Operands.lean ====
section
/-! DEFINITION. The operand forms of the benches: microwords and nano-words (R94 to R103), timing library entries and their legality (R72 to R80), the channel parameter words and their ranges (R39 to R61, R143). -/

namespace Sys2Proof.Machine

/-! ## Microword and nano-word -/

/-- Fields of a microword (R94). -/
def muOp (w : BitVec 48) : Nat := bitsOf w.toNat 42 6
def muNano (w : BitVec 48) : Nat := bitsOf w.toNat 28 14
def muArg (w : BitVec 48) : Nat := bitsOf w.toNat 8 20
def muCut (w : BitVec 48) : Bool := w.getLsbD 0
def muMark (w : BitVec 48) : Bool := w.getLsbD 1
def muGuard (w : BitVec 48) : Bool := w.getLsbD 2
def muPeriod (w : BitVec 48) : Bool := w.getLsbD 3
def muSegend (w : BitVec 48) : Bool := w.getLsbD 4
/-- A reserved flag bit is set (R95). -/
def muBadFlags (w : BitVec 48) : Bool := bitsOf w.toNat 5 3 != 0

/-- Fields of a nano-word (R97 to R100, R132). -/
def nwMarker (n : BitVec 256) : Nat := bitsOf n.toNat (228 + 8) 8
def nwPframe (n : BitVec 256) : Nat := bitsOf n.toNat (228 + 2) 6
def nwGsel (n : BitVec 256) : Nat := bitsOf n.toNat 228 2
def nwSadv (n : BitVec 256) (j : Nat) : Bool := n.getLsbD (220 + j)
def nwFlagClr (n : BitVec 256) : Bool := n.getLsbD (204 + 15)
def nwCaptEn (n : BitVec 256) : Bool := n.getLsbD (204 + 14)
def nwExpSrc (n : BitVec 256) : Nat := bitsOf n.toNat (204 + 12) 2
def nwIomask (n : BitVec 256) : Nat := bitsOf n.toNat (204 + 8) 4
def nwApg (n : BitVec 256) : Nat := bitsOf n.toNat 140 64
/-- Timing-set number and pin code of slot j, lane l (R98). -/
def nwSlot (n : BitVec 256) (j : Nat) : Nat := bitsOf n.toNat (35 * j + 32) 3
def nwCode (n : BitVec 256) (j l : Nat) : Nat := bitsOf n.toNat (35 * j + 4 * l) 4
/-- A reserved bit is set, or EXP_SRC is 0b11 (R97, R99, R132). -/
def nwBad (n : BitVec 256) : Bool :=
  bitsOf n.toNat 244 12 != 0 || bitsOf n.toNat (220 + 4) 4 != 0 || bitsOf n.toNat 204 8 != 0 || nwExpSrc n == 3 ||
    bitsOf n.toNat 140 32 != 0

/-! ## Timing library (R72, R73) -/

/-- PERIOD of entry n. -/
def libPeriod (lib : Tab Word) (n : Nat) : Nat := (tget 0 lib (0x200 * n)).toNat
/-- Word k of lane l in entry n: 0 D_ON, 1 D_DATA, 2 D_RET, 3 D_OFF, 4 C_OPEN, 5 C_CLOSE, 6 LANE_TCFG. -/
def libLane (lib : Tab Word) (n l k : Nat) : Word := tget 0 lib (0x200 * n + 0x40 + 0x20 * l + 4 * k)
/-- The words of one lane of an entry. -/
def laneT (lib : Tab Word) (n l : Nat) : LaneT :=
  let w (k : Nat) : Nat := (libLane lib n l k).toNat
  { dOn := w 0, dData := w 1, dRet := w 2, dOff := w 3, cOpen := w 4, cClose := w 5, tcfg := libLane lib n l 6 }

/-- Fields of LANE_TCFG. -/
def LaneT.format (t : LaneT) : Nat := fld t.tcfg 8 3
def LaneT.window (t : LaneT) : Bool := bit t.tcfg 4
def LaneT.offEn (t : LaneT) : Bool := bit t.tcfg 2
def LaneT.onEn (t : LaneT) : Bool := bit t.tcfg 0

/-- Byte offset a of the library memory is no reserved word (R72). -/
def libWord (a : Nat) : Bool :=
  let o := a % 0x200
  o == 0 || (decide (0x40 ≤ o) && decide (o < 0x140) && o % 0x20 != 0x1C)

/-- Bits of a library word that are stored (R73). -/
def libMask (a : Nat) : Word := if a % 0x200 ≠ 0 ∧ a % 0x20 = 0x18 then 0x715 else 0xFFFFFFFF

/-- The drive edges of a lane satisfy R78: 0, or the code of R92 that they fail. For an SBC lane with D_ON_EN = 0 the code table
names none: PULSE here (log 106). -/
def laneEdgeCode (t : LaneT) : Nat :=
  if t.onEn ∧ t.dData < t.dOn then 2
  else if t.format = 3 ∧ ¬ (t.onEn ∧ t.dOn + 480 ≤ t.dData) then 3
  else if t.format ≠ 0 ∧ ¬ t.dData + 480 ≤ t.dRet then 3
  else if t.offEn ∧ ¬ (if t.format = 0 then t.dData else t.dRet) + 480 ≤ t.dOff then 3
  else if t.window ∧ ¬ t.cOpen + 240 ≤ t.cClose then 4
  else 0

/-- The first code that is not 0. -/
def firstCode : List Nat → Nat
  | [] => 0
  | c :: r => if c = 0 then firstCode r else c

/-- The single-entry checks of R78 on entry n, for a bench of beat width bw whose lane 7 has HV_MODE hv: 0, or the code of
R92 of the first check that fails, in the order of R78. -/
def entryCode (lib : Tab Word) (bw : Nat) (hv : Bool) (n : Nat) : Nat :=
  let p := libPeriod lib n
  let ts := (List.range 8).map fun l => (l, laneT lib n l)
  firstCode <|
    [if p * bw < 5000 then 5 else 0, if hv ∧ p < 80000 then 5 else 0,
     if ts.all fun x => [x.2.dOn, x.2.dData, x.2.dRet, x.2.dOff, x.2.cOpen, x.2.cClose].all fun e => e < p then 0 else 2,
     if ts.all fun x => x.2.format < 4 then 0 else 1,
     if hv ∧ (laneT lib n 7).format ≠ 0 then 0xB else 0] ++ ts.map fun x => laneEdgeCode x.2

/-- last_A, first_B of R79. -/
def LaneT.last (t : LaneT) : Nat := if t.offEn then t.dOff else if t.format = 0 then t.dData else t.dRet
def LaneT.first (t : LaneT) : Nat :=
  min (if t.onEn then t.dOn else t.dData) (if t.offEn then t.dOff else 0)

/-- The pair check of R79 for entries a then b. -/
def pairOk (lib : Tab Word) (a b : Nat) : Bool :=
  (List.range 8).all fun l => (laneT lib a l).last + 480 ≤ libPeriod lib a + (laneT lib b l).first

/-- Entry mapped to slot k, when the slot is mapped (R82). -/
def Tmg.slot (t : Tmg) (k : Nat) : Option Nat :=
  if k < 4 then (if t.mappedLo then some (fld t.slotLo (8 * k) 6) else none)
  else if t.mappedHi then some (fld t.slotHi (8 * (k - 4)) 6) else none

/-- The mapped entries, slot by slot. -/
def Tmg.mapped (t : Tmg) : List Nat := (List.range 8).filterMap t.slot

/-- P_min of R40. -/
def Tmg.pmin (t : Tmg) : Nat := ((t.mapped.map (libPeriod t.lib)).min?).getD 0

/-- The periods that the eight slots select. -/
def Tmg.periods (t : Tmg) : List (Option Nat) := (List.range 8).map fun k => (t.slot k).map (libPeriod t.lib)

/-! ## Channel parameter words (R58 to R61) -/

/-- Fields of CH_CFG. -/
def LaneP.hv (p : LaneP) : Bool := bit p.chCfg 15
def LaneP.park (p : LaneP) : Bool := fld p.chCfg 10 2 == 1
def LaneP.diff (p : LaneP) : Bool := fld p.chCfg 8 2 == 1
def LaneP.term (p : LaneP) : Bool := fld p.chCfg 6 2 == 1
def LaneP.loadEn (p : LaneP) : Bool := bit p.chCfg 5
def LaneP.pmu (p : LaneP) : Bool := bit p.chCfg 4
/-- Fields of PPMU_CFG. -/
def LaneP.irange (p : LaneP) : Nat := fld p.ppmuCfg 8 4
def LaneP.force (p : LaneP) : Nat := fld p.ppmuCfg 4 2
def LaneP.measI (p : LaneP) : Bool := bit p.ppmuCfg 2
/-- Fields of ADC_CFG: sample interval in µs, samples in an average, result interval in µs (R53, R198). -/
def LaneP.sampleUs (p : LaneP) : Nat := fld p.adcCfg 0 16 + 1
def LaneP.avg (p : LaneP) : Nat := 2 ^ fld p.adcCfg 16 4
def LaneP.resultUs (p : LaneP) : Nat := p.sampleUs * p.avg

/-- The word at a byte offset of a lane block, none at a reserved offset (R58). -/
def LaneP.get (p : LaneP) : Nat → Option Word
  | 0x00 => some p.vih | 0x04 => some p.vil | 0x08 => some p.vtt | 0x0C => some p.vch | 0x10 => some p.vcl
  | 0x14 => some p.iol | 0x18 => some p.ioh | 0x1C => some p.vcom | 0x20 => some p.ppmuForce
  | 0x24 => some p.vclampHi | 0x28 => some p.vclampLo | 0x2C => some p.iclampHi | 0x30 => some p.iclampLo
  | 0x34 => some p.parkV | 0x38 => some p.chCfg | 0x3C => some p.ppmuCfg | 0x40 => some p.adcCfg
  | 0x80 => some p.apgMap
  | _ => none

/-- The block with a word replaced. -/
def LaneP.set (p : LaneP) (off : Nat) (v : Word) : LaneP :=
  match off with
  | 0x00 => { p with vih := v } | 0x04 => { p with vil := v } | 0x08 => { p with vtt := v }
  | 0x0C => { p with vch := v } | 0x10 => { p with vcl := v } | 0x14 => { p with iol := v }
  | 0x18 => { p with ioh := v } | 0x1C => { p with vcom := v } | 0x20 => { p with ppmuForce := v }
  | 0x24 => { p with vclampHi := v } | 0x28 => { p with vclampLo := v } | 0x2C => { p with iclampHi := v }
  | 0x30 => { p with iclampLo := v } | 0x34 => { p with parkV := v } | 0x38 => { p with chCfg := v }
  | 0x3C => { p with ppmuCfg := v } | 0x40 => { p with adcCfg := v } | 0x80 => { p with apgMap := v }
  | _ => p

/-- The offsets of a lane block that hold binary32 words. -/
def levelOffs : List Nat := [0x00, 0x04, 0x08, 0x0C, 0x10, 0x14, 0x18, 0x1C, 0x20, 0x24, 0x28, 0x2C, 0x30, 0x34]

/-- Bits of a lane word that are stored: reserved bits are ignored (R10, R59 to R61, R143). -/
def laneMask (l off : Nat) : Word :=
  match off with
  | 0x38 => if l = 7 then 0x8CF0 else if l % 2 = 0 then 0x0FF0 else 0x0CF0
  | 0x3C => 0xF34
  | 0x40 => 0xFFFFF
  | 0x80 => 0xF1F
  | _ => 0xFFFFFFFF

/-- Full scale of a current range, times 2^149 (R49). -/
def irangeMax : Nat → Int
  | 0 => f32Dec 2 1000000
  | 1 => f32Dec 2 100000
  | 2 => f32Dec 2 10000
  | 3 => f32Dec 2 1000
  | _ => f32Dec 4 100

/-- Top of the PPMU force range (R48). -/
def forceMax (p : LaneP) : Int := if p.hv then f32Dec 135 10 else f32Int 6
def forceMin : Int := f32Dec (-15) 10

/-- A level word lies in the range of its place, in the lane's present modes (R39 to R51). -/
def LaneP.inRange (p : LaneP) (off : Nat) (v : Word) : Bool :=
  match off with
  | 0x00 | 0x04 => if p.hv then f32In 0 (f32Dec 135 10) v else f32In (f32Int (-1)) (f32Int 4) v
  | 0x08 | 0x1C | 0x34 => f32In (f32Int (-1)) (f32Int 4) v
  | 0x0C | 0x10 =>
    if p.hv then f32In 0 (f32Int 14) v
    else if p.diff then f32In (f32Int (-2)) (f32Int 2) v
    else f32In (f32Int (-1)) (f32Dec 45 10) v
  | 0x14 | 0x18 => f32In 0 (f32Dec 25 1000) v
  | 0x20 =>
    if p.force = 1 then f32In forceMin (forceMax p) v
    else if p.force = 2 then f32In (-(irangeMax p.irange)) (irangeMax p.irange) v
    else f32Finite v
  | 0x24 | 0x28 => f32In forceMin (forceMax p) v
  | 0x2C | 0x30 => f32In (-(irangeMax p.irange)) (irangeMax p.irange) v
  | _ => true

/-- The words with bit HV_MODE of CH_CFG at hv. -/
def LaneP.withHv (p : LaneP) (hv : Bool) : LaneP :=
  { p with chCfg := if hv then p.chCfg ||| 0x8000 else p.chCfg &&& ~~~(0x8000 : Word) }

/-- The drive swing is within the limit for P_min (R40); none with HV_MODE (R42). -/
def LaneP.swingOk (p : LaneP) (pmin : Nat) : Bool :=
  p.hv || decide (f32Num p.vih - f32Num p.vil ≤ if 2500 ≤ pmin then f32Int 3 else f32Dec 12 10)

/-- The orderings of R39 and R50. -/
def LaneP.ordered (p : LaneP) : Bool :=
  decide (f32Num p.vil ≤ f32Num p.vih) && decide (f32Num p.iclampLo < 0) && decide (0 < f32Num p.iclampHi) &&
    decide (f32Num p.vclampLo + f32Dec 2 10 ≤ f32Num p.vclampHi)

/-- Highest bit index of each APG map source (R143). -/
def mapBits : List Nat := [31, 23, 19, 7, 23, 19, 7, 31, 7]

/-- A field code or combination of the lane's words is illegal: code MODE (R42, R43, R46, R49, R53, R60, R143). other is the
lane that shares the conflict of R46: lane 7 for lane 6 and lane 6 for lane 7. -/
def LaneP.modeBad (p : LaneP) (l : Nat) (other : LaneP) (t : Tmg) : Bool :=
  fld p.chCfg 8 2 ≥ 2 || fld p.chCfg 6 2 ≥ 2 || p.irange ≥ 5 || p.force = 3 || fld p.adcCfg 16 4 > 10 ||
  (match mapBits[fld p.apgMap 8 4]? with
   | none => true
   | some n => fld p.apgMap 0 5 > n) ||
  (p.hv && (p.loadEn || p.term || t.mapped.any fun n => (laneT t.lib n 7).format != 0 || libPeriod t.lib n < 80000)) ||
  (l = 7 && p.hv && other.diff) || (l = 6 && p.diff && other.hv)

/-- The code of R66 that a write of v at offset off of lane l would be refused with, 0 for none. q is the block after the
write: the written word out of its own range is RANGE, any other broken rule CONSTRAINT (R51, R413). -/
def laneCode (q other : LaneP) (t : Tmg) (l off : Nat) (v : Word) : Nat :=
  if levelOffs.contains off && !f32Finite v then 1
  else if q.modeBad l other t then 7
  else if !q.inRange off v then 2
  else if !(levelOffs.all fun o => q.inRange o ((q.get o).getD 0)) || !q.ordered || !q.swingOk t.pmin then 3
  else 0

/-- A whole lane block obeys every rule: 0 or the code of R66 it breaks. -/
def laneLegal (q other : LaneP) (t : Tmg) (l : Nat) : Nat :=
  if !(levelOffs.all fun o => f32Finite ((q.get o).getD 0)) then 1
  else if q.modeBad l other t then 7
  else if !(levelOffs.all fun o => q.inRange o ((q.get o).getD 0)) then 2
  else if !q.ordered || !q.swingOk t.pmin then 3
  else 0

/-- The lane that shares the conflict of R46 with lane l. -/
def otherLane (l : Nat) : Nat := if l = 7 then 6 else 7

/-- The words of lane 7 in the mode it holds, and in the mode it changes to while a change of HV_MODE is in progress (R44). -/
def Bench.lane7s (x : Bench) : List LaneP :=
  let p : LaneP := tget {} x.lanes 7
  match (tget {} x.chans 7 : Chan).hvChange with
  | none => [p]
  | some c => [p, p.withHv c.2.1]

/-- The words of lane l in every mode that it holds or changes to. -/
def Bench.laneForms (x : Bench) (l : Nat) : List LaneP := if l = 7 then x.lane7s else [tget {} x.lanes l]

/-- The mapped entries of a bench obey R78 to R80, and its lanes the swing of R40: 0 or the code of R92. During a change of
HV_MODE both modes of lane 7 count. -/
def mapCode (x : Bench) (bw : Nat) : Nat :=
  let t := x.tmg
  let hv := x.lane7s.any (·.hv)
  let es := t.mapped
  firstCode <|
    (es.map fun n => if libPeriod t.lib n = 0 then 8 else entryCode t.lib bw hv n) ++
    [if es.all fun a => es.all fun b => pairOk t.lib a b then 0 else 3,
     if ((List.range 7).map fun l => (tget {} x.lanes l : LaneP)).all (·.swingOk t.pmin) && x.lane7s.all (·.swingOk t.pmin)
     then 0 else 6]

/-- Beat width of a bench: 1 in no gang (R78). -/
def State.bw (s : State) (b : Nat) : Nat := ((s.gangOf b).map fun g => (s.gang g).cfg.bw).getD 1

end Sys2Proof.Machine
end

