-- ==== Sys2Proof/Machine/Calib.lean ====
section
/-! DEFINITION. The calibration tables and the conversions between codes and values (R69, R218 to R220). -/

namespace Sys2Proof.Machine

/-- Word a of the metrology die's calibration store. -/
def State.storeWord (s : State) (a : Nat) : Word := (tfind s.met.store a).getD (Config.storeWord a)

/-- Word a of the digital die's mirror. Until the mirror is accepted the spec gives it no content: a free value (log 84). -/
def State.mirrorWord (s : State) (a : Nat) : Word :=
  if s.met.mirrorOk then (tfind s.met.mirror a).getD (Config.storeWord a) else Config.mirrorBefore a

/-- The coefficients of a table, each times 2^149: GAIN, OFFSET and the 16 segment corrections (R218). -/
structure Coef where
  gain : Int
  offset : Int
  seg : Nat → Int

/-- The coefficients that words 32 t to 32 t + 17 hold. -/
def coefOf (word : Nat → Word) (t : Nat) : Coef :=
  { gain := f32Num (word (32 * t)), offset := f32Num (word (32 * t + 1)),
    seg := fun k => f32Num (word (32 * t + 2 + k)) }

/-- Nominal coefficients: a step, OFFSET 0 and no correction (R219). -/
def nominal (step : Int) : Coef := { gain := step, offset := 0, seg := fun _ => 0 }

/-- The nominal DAC step of node n in the lane's present modes (R49, R69), none where the spec gives none: VCOM, the PPMU
force in voltage and the voltage clamps. -/
def dacStep (p : LaneP) (n : Nat) : Option Int :=
  if n ≤ 2 then some (if p.hv then f32Dec 2060 10000000 else f32Dec 763 10000000)
  else if n ≤ 4 then
    some (if p.hv then f32Dec 2136 10000000 else if p.diff then f32Dec 610 10000000 else f32Dec 839 10000000)
  else if n = 6 ∧ p.force = 2 then
    some (match p.irange with
      | 0 => f32Dec 4 (1000000 * 2 ^ 16)
      | 1 => f32Dec 4 (100000 * 2 ^ 16)
      | 2 => f32Dec 4 (10000 * 2 ^ 16)
      | 3 => f32Dec 4 (1000 * 2 ^ 16)
      | _ => f32Dec 8 (100 * 2 ^ 16))
  else none

/-- The segment, 0 to 15, of a code of 2^k steps (R218). -/
def segment (k : Nat) (code : Int) : Nat := min 15 (code / 2 ^ (k - 4)).toNat

/-- The code of 2^k steps for a value, given as num / den times 2^149 (R218): nearest, ties to even. A GAIN of zero gives
a free value. -/
def codeFor (k : Nat) (c : Coef) (num : Int) (den : Nat) : Int :=
  let sg : Int := if c.gain < 0 then -1 else 1
  let g := (sg * c.gain).toNat
  if g = 0 then Config.freeInt 0
  else
    let x := sg * (num - c.offset * den)
    roundDiv (x * 2 ^ 149 - c.seg (segment k (x / (g * den))) * (g * den)) (g * den * 2 ^ 149)

/-- The value times 2^298 that a code gives (R218). -/
def valueOf (k : Nat) (c : Coef) (code : Int) : Int :=
  c.gain * (code * 2 ^ 149 + c.seg (segment k code)) + c.offset * 2 ^ 149

/-- The 16-bit DAC code of a value given times 2^149. -/
def dacCode (c : Coef) (v : Int) : Int := codeFor 16 c v 1

/-- A running CAL job names bench b (R88). -/
def Job.cals (j : Job) (b : Nat) : Bool :=
  j.phase == .running && fld (j.words.getD 0 0) 0 8 == 5 &&
    ((j.words.getD 2 0).toNat + (j.words.getD 3 0).toNat * 2 ^ 32).testBit b

/-- Bench b is under the control of a CAL job: its lanes are out of safe state until the job ends (R88). -/
def State.inCal (s : State) (b : Nat) : Bool := s.ports.any fun p => p.2.jobs.any fun j => j.cals b

/-- The settings that act on lane l of bench b now: those of Contact Watch while it runs (R370), those of a CAL job that names the
bench (R88), those of PARK while the PPMU forces PARK_V (R54), and otherwise those of the parameter memory. Of the settings that
R88 does not list, HV_MODE, DIFF and PPMU_CFG are 0 for a CAL job (log 108). -/
def State.acting (s : State) (b l : Nat) : LaneP :=
  let p := s.lane b l
  if s.top.cwRun then
    { p with chCfg := p.chCfg ||| 0x10, ppmuCfg := at' 2 8 ||| at' 2 4, ppmuForce := f32Round (-1) 10000,
             vclampHi := f32Round 1 1, vclampLo := f32Round (-15) 10, adcCfg := 0 }
  else if s.inCal b then
    { p with chCfg := p.chCfg &&& 0xC00, ppmuCfg := 0, vil := 0, vih := f32Round 1 1, vcl := f32Round 25 100,
             vch := f32Round 75 100 }
  else if (s.chan b l).parkForce then
    { p with ppmuCfg := at' 2 8 ||| at' 1 4 ||| flag p.measI 2, ppmuForce := p.parkV, iclampHi := f32Round 2 10000,
             iclampLo := f32Round (-2) 10000 }
  else p

/-- The calibrated element of a lane that a word at offset off sets (R216, R218), none for the current words. PARK_V is
forced through the PPMU force DAC. -/
def elemOf : Nat → Option Nat
  | 0x00 => some 0 | 0x04 => some 1 | 0x08 => some 2 | 0x0C => some 3 | 0x10 => some 4 | 0x1C => some 5
  | 0x20 => some 6 | 0x34 => some 6 | 0x24 => some 7 | 0x28 => some 8
  | _ => none

/-- The coefficients with which the digital die converts for table t, of nominal step `step` (R30, R219). -/
def State.mirrorCoef (s : State) (t : Nat) (step : Option Int) : Coef :=
  if s.met.mirrorBad then nominal (step.getD (f32Num (Config.nominalGain t))) else coefOf s.mirrorWord t

/-- The DAC code for the accepted word at offset off of lane l of bench b, computed from the stored value and the calibration
mirror (R30, R69). PARK_V is a voltage whatever FORCE says. -/
def State.dac (s : State) (b l off : Nat) : Int :=
  let p := s.lane b l
  let v := (p.get off).getD 0
  match elemOf off with
  | some n =>
    let t := 16 * (8 * b + l) + n
    dacCode (s.mirrorCoef t (if off = 0x34 then none else dacStep p n)) (f32Num v)
  | none => Config.currentCode (8 * b + l) off v

/-- The nominal converter step of a lane in its present mode (R49, R53). -/
def adcStep (p : LaneP) : Int :=
  if p.measI then
    match p.irange with
    | 0 => f32Dec 4 (1000000 * 2 ^ 18)
    | 1 => f32Dec 4 (100000 * 2 ^ 18)
    | 2 => f32Dec 4 (10000 * 2 ^ 18)
    | 3 => f32Dec 4 (1000 * 2 ^ 18)
    | _ => f32Dec 8 (100 * 2 ^ 18)
  else if p.hv then f32Dec 15 (2 ^ 18) else f32Dec 75 (10 * 2 ^ 18)

/-- The result of a list of raw codes of k bits: each converted by R218, their exact mean rounded once to binary32. -/
def codeMean (k : Nat) (c : Coef) (codes : List Nat) : Word :=
  f32Round ((codes.map fun (n : Nat) => valueOf k c n).foldl (· + ·) 0) (codes.length * 2 ^ 298)

/-- That of raw 18-bit codes of a channel's converter. -/
def adcMean (c : Coef) (codes : List (BitVec 18)) : Word := codeMean 18 c (codes.map (·.toNat))

/-- The metrology die's result for lane l of bench b (R30, R220). -/
def State.adcResult (s : State) (b l : Nat) (codes : List (BitVec 18)) : Word :=
  let p := s.acting b l
  let n := if p.measI then 10 + p.irange else 9
  adcMean (if s.met.storeBad then nominal (adcStep p) else coefOf s.storeWord (16 * (8 * b + l) + n)) codes

/-- Flags of a result block (R224). -/
def State.blockFlags (s : State) : BitVec 8 :=
  BitVec.ofNat 8 ((if s.met.sealState = .session then 1 else 0) + (if s.met.refDisagree then 2 else 0) +
    (if s.met.storeBad then 4 else 0))

/-- The words of a result block before its tag (R224). vals are (node, index, value). -/
def State.blockWords (s : State) (seq tick : Nat) (vals : List (Nat × Nat × Word)) : List Word :=
  [lo32 Config.devSn, hi32 Config.devSn, s.met.sealCnt, s.met.labId, wd seq,
   at' s.blockFlags.toNat 24 ||| wd vals.length, wordOf tick 0, wordOf tick 1] ++
  vals.flatMap fun v => [at' v.1 24 ||| wd v.2.1, v.2.2]

/-- Bytes 0 to 7 of a 256-bit digest, as little-endian words. -/
def tagWords (d : BitVec 256) : List Word := [wordOf d.toNat 0, wordOf d.toNat 1]

/-- The tag of a list of words under the seal key (R224). -/
def State.tag (s : State) (ws : List Word) : List Word := tagWords (Config.hmacSha256 s.met.sealKey (wordBytes ws))

/-- The next sample instant or result of a lane's converter falls on grid points that are multiples of n µs: the least
such point after grid position g. -/
def gridAfter (n g : Nat) : Nat := 800 * n * (g / (800 * n) + 1)
/-- The least such point at or after g. -/
def gridFrom (n g : Nat) : Nat := 800 * n * ceilDiv g (800 * n)

/-- The first result whose average is full, for a converter restarted at grid position r: every sample of it is taken after
r (R53, R198). -/
def fullFrom (p : LaneP) (r : Nat) : Nat := gridFrom p.resultUs (gridAfter p.sampleUs r + 800 * p.sampleUs * (p.avg - 1))

end Sys2Proof.Machine
end

