-- ==== Sys2Proof/Machine/Acq.lean ====
section
/-! DEFINITION. The acquisition units (R198 to R213, R225). -/

namespace Sys2Proof.Machine

/-! ## Configuration -/

/-- Selected channels, as 0 to 15 (CHMASK). -/
def Acq.sel (a : Acq) : List Nat := bitsSet 16 (fld a.acqCfg 16 16)
/-- Reduction factor K (R203). -/
def Acq.k (a : Acq) : Nat := fld a.acqCfg 0 16 + 1
def Acq.mean (a : Acq) : Bool := bit a.mode 0
def Acq.lslope (a : Acq) : Nat := fld a.mode 2 2
def Acq.wen (a : Acq) : Bool := bit a.mode 4
def Acq.wenter (a : Acq) : Bool := bit a.mode 5
def Acq.startSrc (a : Acq) : Nat := fld a.mode 6 2
def Acq.qual (a : Acq) : Nat := fld a.mode 8 2
def Acq.lch (a : Acq) : Nat := fld a.chsel 0 4
def Acq.wch (a : Acq) : Nat := fld a.chsel 4 4
def Acq.qch (a : Acq) : Nat := fld a.chsel 8 4

/-- Channels that the unit selects or uses (R199). -/
def Acq.used (a : Acq) : List Nat :=
  (a.sel ++ (if a.lslope ≠ 0 then [a.lch] else []) ++ (if a.wen then [a.wch] else []) ++
    (if 2 ≤ a.qual then [a.qch] else [])).eraseDups

/-- Words of an entry for one channel (R203). -/
def Acq.perChan (a : Acq) : Nat := if a.k = 1 then 1 else if a.mean then 3 else 2
/-- Entry size W in bytes (R203). -/
def Acq.entryBytes (a : Acq) : Nat := a.sel.length * a.perChan * 4
/-- Entry positions of a record (R206). -/
def Acq.positions (a : Acq) : Nat := a.pre.toNat + a.post.toNat
/-- HBM address of the slot of record n (R210). -/
def Acq.slotAddr (a : Acq) (n : Nat) : Nat := a.cfg.base + a.cfg.slot * 4096 * (n % max 1 a.cfg.nslot)

/-- Bench and lane of channel j of unit u (R3). -/
def unitLane (u j : Nat) : Nat × Nat := (2 * u + j / 8, j % 8)

/-- Parameter block of channel j of unit u. -/
def State.unitP (s : State) (u j : Nat) : LaneP := s.lane (unitLane u j).1 (unitLane u j).2
def State.unitChan (s : State) (u j : Nat) : Chan := s.chan (unitLane u j).1 (unitLane u j).2

/-- Result interval of a unit in µs: that of its first used channel (R199). -/
def State.unitUs (s : State) (u : Nat) : Nat :=
  match (s.acq u).used with
  | [] => 1
  | j :: _ => (s.unitP u j).resultUs

/-- Every used channel has the same result interval (R199). -/
def State.unitEqual (s : State) (u : Nat) : Bool := (s.acq u).used.all fun j => (s.unitP u j).resultUs == s.unitUs u

/-- A refusal of a unit (R213). -/
def State.acqRefuse (u code : Nat) (s : State) : State := s.modAcq u fun a => { a with refused := true, errCode := code }

/-! ## Arm, start, stop -/

/-- The code with which an ARM is refused, 0 for none (R201, R213); every ARM is during a commit (R254). -/
def State.armCode (s : State) (u : Nat) : Nat :=
  let a := s.acq u
  if (a.state ≠ .idle ∧ a.state ≠ .done) ∨ s.img.stg = .committing then 1
  else if a.sel = [] then 6
  else if s.img.activeValid ∧ a.used.any fun j => s.benchPart (unitLane u j).1 ≠ some a.cfg.partition then 2
  else if !s.unitEqual u then 3
  else if a.positions = 0 ∨ a.cfg.slot * 4096 < 0x200 + a.positions * a.entryBytes then 4
  else if !([a.tlevel, a.thyst, a.wlo, a.whi, a.qlevel].all f32Finite) ∨ f32Num a.thyst < 0 ∨ f32Num a.whi < f32Num a.wlo
  then 5
  else 0

/-- The unit's reserved rate is below its write rate (R209). -/
def State.overrate (s : State) (u : Nat) : Bool :=
  let a := s.acq u
  decide (a.cfg.rate * 64000 * (s.unitUs u * a.k) < a.entryBytes * 1000000)

/-- A write of 1 to ARM (R201). -/
def State.acqArm (u : Nat) (s : State) : State :=
  let c := s.armCode u
  if c ≠ 0 then s.acqRefuse u c
  else
    let fast := s.overrate u
    let s := s.modAcq u fun a =>
      { a with state := if a.startSrc = 0 then .pre else .waitStart, overrate := a.overrate || fast, wr := 0, rd := 0,
               recno := 0, rcd := {}, finalIdle := false, lost := {}, gapCnt := {}, deadFrames := 0, firstLost := 0,
               deadNs := 0, changed := false, armAt := s.grid, armed := s.grid, lastFrame := none, startAt := none, trigPulses := [], qualPulses := [],
               qualLatched := false, primedLo := false, primedHi := false, prevInside := none, buf := 0,
               bufTick := s.grid }
    s.each (List.range 5) fun i => State.modReader i fun r => { r with rdLo := tdel r.rdLo u }

/-- A unit in WAIT_START whose start event has come leaves it (R202). -/
def State.acqStartNow (u : Nat) (s : State) : State :=
  s.modAcq u fun a => match a.state, a.startAt with
    | .waitStart, some t => { a with state := .pre, armAt := t, startAt := none }
    | _, _ => a

/-- The record takes up the dead time that preceded it, and what was lost in it (R208). -/
def Acq.withDead (a : Acq) : Record :=
  { a.rcd with deadSamples := a.deadFrames, deadNs := a.deadNs, lostTrig := a.lost, firstLost := a.firstLost }

/-- The record in progress ends with an END code (R211). One that ends before its first frame still carries the dead time that
preceded it (R208; log 114). -/
def State.acqEnd (u code : Nat) (idle : Bool) (s : State) : State :=
  s.modAcq u fun a => match a.state with
    | .pre | .post =>
      let r := if a.rcd.first.isNone then a.withDead else a.rcd
      { a with state := .final, finalIdle := idle, rcd := { r with endCode := code, acc := [] }, deadFrames := 0, deadNs := 0,
               lost := {}, firstLost := 0 }
    | .waitStart | .held => { a with state := .idle }
    | _ => a

/-- A STOP of the unit (R201, R211). -/
def State.acqStop (u : Nat) (s : State) : State := s.acqEnd u 1 true

/-- A change of ADC_CFG, MODE, FORCE, MEAS or IRANGE on lane l of bench b: the converter restarts (R53), and a unit that uses the
channel has still to judge the change (R211). -/
def State.converterChange (b l : Nat) (s : State) : State :=
  (s.modChan b l fun c => { c with adcRestart := some s.grid }).modAcq (b / 2) fun a =>
    { a with changed := a.changed || a.used.contains (8 * (b % 2) + l) }

/-- A unit judges the changes that one write, or the beats of one gang, have made to its converters, all of them together: its
record ends with CONFIG, and if the result intervals have come to differ the unit enters IDLE and refuses with RATE (R211). A
unit in FINAL then enters IDLE once its header is written. -/
def State.unitJudge (u : Nat) (s : State) : State :=
  let a := s.acq u
  if !a.changed then s
  else
    let s := s.modAcq u fun a => { a with changed := false }
    if a.state = .idle ∨ a.state = .done then s
    else if s.unitEqual u then s.acqEnd u 2 false
    else ((s.acqEnd u 2 true).modAcq u fun a => { a with finalIdle := a.finalIdle || a.state == .final }).acqRefuse u 3

/-- The grid point of the first frame that a re-armed unit takes: at or after the re-arm, with full averages (R207, R211). -/
def State.recordFrom (s : State) (u : Nat) : Nat :=
  let a := s.acq u
  a.used.foldl (fun f j => match (s.unitChan u j).adcRestart with
    | some r => max f (fullFrom (s.unitP u j) r)
    | none => f) (gridFrom (s.unitUs u) a.armAt)

/-- Channel j of unit u enters safe state, or leaves it: a record of the unit that has begun, and that selects the channel, says
so (R211). -/
def State.unitSafe (u j : Nat) (s : State) : State :=
  let f := s.recordFrom u
  s.modAcq u fun a =>
    if (a.state = .pre ∨ a.state = .post) ∧ a.sel.contains j ∧ (a.rcd.first.isSome ∨ f ≤ s.grid) then
      { a with rcd := { a.rcd with safe := true } }
    else a

/-! ## Frames -/

/-- The raw result of channel j of unit u at grid point f, a free value where none was delivered. -/
def State.rawAt (u f j : Nat) (s : State) : Word × State :=
  match (s.unitChan u j).adcResults.find? fun r => r.1 = f with
  | some r => (r.2, s)
  | none => let (n, s) := s.free; (wd n, s)

/-- The raw results of a list of channels at grid point f. -/
def State.rawsAt (u f : Nat) : List Nat → State → Tab Word × State
  | [], s => ([], s)
  | j :: r, s =>
    let (v, s) := s.rawAt u f j
    let (t, s) := State.rawsAt u f r s
    (tput t j v, s)

/-- A level slope fires (R204): rising, or falling mirrored. -/
def levelFires (a : Acq) (v : Int) : Bool :=
  ((a.lslope == 1 || a.lslope == 3) && decide (f32Num a.tlevel ≤ v) && a.primedLo) ||
  ((a.lslope == 2 || a.lslope == 3) && decide (v ≤ f32Num a.tlevel) && a.primedHi)

/-- The priming of the level trigger after a frame's result (R204). -/
def levelPrime (a : Acq) (v : Int) : Acq :=
  let up := decide (f32Num a.tlevel ≤ v) && a.primedLo && (a.lslope == 1 || a.lslope == 3)
  let dn := decide (v ≤ f32Num a.tlevel) && a.primedHi && (a.lslope == 2 || a.lslope == 3)
  { a with primedLo := if up then false else a.primedLo || decide (v ≤ f32Num a.tlevel - f32Num a.thyst),
           primedHi := if dn then false else a.primedHi || decide (f32Num a.tlevel + f32Num a.thyst ≤ v) }

/-- The window bounds are inclusive (R204). -/
def insideWin (a : Acq) (v : Int) : Bool := decide (f32Num a.wlo ≤ v) && decide (v ≤ f32Num a.whi)

/-- The window trigger fires (R204). -/
def windowFires (a : Acq) (v : Int) : Bool :=
  a.wen && match a.prevInside with
    | none => false
    | some was => if a.wenter then !was && insideWin a v else was && !insideWin a v

/-- The qualifier of R204 holds. -/
def qualified (a : Acq) (latched : Bool) (v : Int) : Bool :=
  match a.qual with
  | 0 => true
  | 1 => latched
  | 2 => decide (f32Num a.qlevel ≤ v)
  | _ => decide (v ≤ f32Num a.qlevel)

/-- The words of one channel in an entry (R203), from its raw results, newest first. -/
def entryWords (k : Nat) (mean : Bool) (vs : List Word) : List Word :=
  if k = 1 then vs.take 1
  else
    let r := vs.reverse
    let pick (better : Int → Int → Bool) : Word :=
      r.foldl (fun m v => if better (f32Num v) (f32Num m) then v else m) (r.headD 0)
    [pick (fun a b => decide (a < b)), pick (fun a b => decide (b < a))] ++
      if mean then [f32Round ((r.map f32Num).foldl (· + ·) 0) (r.length * 2 ^ 149)] else []

/-- Parts of a byte in which the write buffer is reckoned: RATE × 64,000 bytes per second are RATE of them a tick. -/
def bufParts : Nat := 12500

/-- Room for an entry in the write buffer (R209): it drains at the reserved rate, and what that leaves is drained besides by
unreserved bandwidth, a free amount. -/
def State.bufStep (u f : Nat) (s : State) : Bool × State :=
  let a := s.acq u
  let w := a.entryBytes * bufParts
  let rest := a.buf - a.cfg.rate * (f - a.bufTick)
  let (extra, s) := if rest = 0 then (0, s) else s.free
  let left := rest - extra
  if 16384 * bufParts < left + w then
    (false, s.modAcq u fun a => { a with
      buf := left, bufTick := f, gapSeen := true, gapCnt := a.gapCnt.add 1 })
  else (true, s.modAcq u fun a => { a with buf := left + w, bufTick := f })

/-- A dropped entry joins the last run of drops, or begins one. -/
def addGap (i : Nat) (gs : List (Nat × Nat)) : List (Nat × Nat) :=
  match gs.getLast? with
  | some (st, n) => if st + n = i then gs.dropLast ++ [(st, n + 1)] else gs ++ [(i, 1)]
  | none => [(i, 1)]

/-- The interval in progress is complete: its entry is written at its position, or dropped (R206, R209). -/
def State.entryDone (u f : Nat) (s : State) : State :=
  let a := s.acq u
  let i := a.rcd.intervals
  let pos := i % a.positions
  let ws := a.sel.flatMap fun j => entryWords a.k a.mean (tget [] a.rcd.acc j)
  let (room, s) := s.bufStep u f
  let s := if room then s.hbmWords (a.slotAddr a.recno + 0x200 + pos * a.entryBytes) ws else s
  s.modAcq u fun a => { a with rcd := { a.rcd with
    acc := [], intervals := i + 1, written := tput a.rcd.written pos room,
    gaps := if room then a.rcd.gaps else addGap i a.rcd.gaps } }

/-- A trigger is accepted: the tick on which its frame's results arrive (R205). -/
def State.acqAccept (u f : Nat) (loc : Nat) (srcs : List Nat) (s : State) : State :=
  let s := s.modAcq u fun a => { a with state := .post, rcd := { a.rcd with
    trigInterval := some (a.rcd.frames / a.k), trigOfs := a.rcd.frames % a.k, trigTick := f, trigLocal := loc,
    sources := srcs.foldl (fun m n => m ||| BitVec.ofNat 192 (2 ^ n)) 0 } }
  let s := s.pulse (72 + u)
  s.each ([2 * u, 2 * u + 1].map s.leadOf).eraseDups fun b => State.assertEvt b 4

/-- The unit takes the frame at grid point f, its results having arrived in a result block (R224; log 98). loc is local time at f. A record with POST = 0 ends as
its trigger is accepted, and the trigger interval is not written (R206). -/
def State.takeFrame (u f loc : Nat) (s : State) : State :=
  let a := s.acq u
  let us := s.unitUs u
  let s := s.modMet fun m => { m with blockSeq := if m.running then m.blockSeq + 1 else m.blockSeq }
  let full := a.used.all fun j => match (s.unitChan u j).adcRestart with
    | none => true
    | some r => fullFrom (s.unitP u j) r ≤ f
  let ps := a.trigPulses.filter fun p => p.1 ≤ f
  let latched := a.qualLatched || a.qualPulses.any fun t => t ≤ f
  let s := s.modAcq u fun a => { a with lastFrame := some f, trigPulses := a.trigPulses.filter fun p => f < p.1,
                                        qualPulses := a.qualPulses.filter fun t => f < t }
  let (raw, s) := if full then s.rawsAt u f a.used else ([], s)
  let num (j : Nat) : Int := f32Num (tget 0 raw j)
  let level := full && a.lslope != 0 && levelFires a (num a.lch)
  let win := full && windowFires a (num a.wch)
  let srcs := (ps.map (·.2)).eraseDups ++ (if level then [188] else []) ++ (if win then [189] else [])
  let s := s.modAcq u fun a =>
    if !full then a
    else
      let a := if a.lslope ≠ 0 then levelPrime a (num a.lch) else a
      if a.wen then { a with prevInside := some (insideWin a (num a.wch)) } else a
  let inRec := (a.state == .pre || a.state == .post) && full && decide (a.armAt ≤ f)
  if a.state = .waitStart then s
  else if !inRec then
    if a.recno = 0 ∧ a.state ≠ .final ∧ a.state ≠ .held then s
    else s.modAcq u fun a => { a with
      deadFrames := min 0xFFFFFFFF (a.deadFrames + 1),
      deadNs := if a.deadFrames < 0xFFFFFFFF then a.deadNs + us * 1000 else a.deadNs, lost := a.lost.add srcs.length, firstLost :=
      if a.lost.count = 0 ∧ srcs ≠ [] then ((ps.map (·.1)) ++ if level || win then [f] else []).foldl min f
      else a.firstLost }
  else
    let first := a.rcd.first.isNone
    let s := s.modAcq u fun a => { a with
      qualLatched := latched,
      rcd := { (if first then a.withDead else a.rcd) with
        first := some (a.rcd.first.getD f),
        us := if first then us else a.rcd.us,
        flags := a.rcd.flags ||| s.blockFlags,
        safe := a.rcd.safe || a.sel.any fun j => (s.unitChan u j).inSafe,
        acc := a.sel.foldl (fun t j => tmod [] t j (tget 0 raw j :: ·)) a.rcd.acc } }
    let fires := a.state == .pre && srcs != [] && qualified a latched (num a.qch)
    let s := if fires then s.acqAccept u f loc srcs else s
    let s := s.modAcq u fun a => { a with rcd := { a.rcd with frames := a.rcd.frames + 1 } }
    let done := (s.acq u).rcd.trigInterval.isSome && a.post == 0
    let s := if (s.acq u).rcd.frames % a.k = 0 ∧ !done then s.entryDone u f else s
    let b := s.acq u
    match b.rcd.trigInterval with
    | some i => if i + b.post.toNat ≤ b.rcd.intervals ∨ b.post = 0 then s.acqEnd u 0 false else s
    | none => s

/-- The grid point of the unit's next frame: the first at or after the ARM, then one interval after another. -/
def State.nextFrame (s : State) (u : Nat) : Nat :=
  match (s.acq u).lastFrame with
  | none => gridFrom (s.unitUs u) (s.acq u).armed
  | some f => gridAfter (s.unitUs u) f

/-- The results of the next frame arrive, L_ACQ = 1,280 ticks after its grid point (R200). -/
def State.acqFrame (u : Nat) (s : State) : State :=
  let a := s.acq u
  if a.state = .idle ∨ a.state = .done then s
  else
    let f := s.nextFrame u
    let s := s.advanceTo (s.now + (f - s.grid))
    let loc := s.localAt f
    let s := s.advanceTo (s.now + (f + 1280 - s.grid))
    let s := match (s.acq u).startAt with
      | some t => if t ≤ f then s.acqStartNow u else s
      | none => s
    s.takeFrame u f loc

/-! ## The record header (R207, R210, R225) -/

/-- Pre-trigger entries held (R206, R211). -/
def Acq.preValid (a : Acq) : Nat := min a.pre.toNat (a.rcd.trigInterval.getD a.rcd.intervals)
/-- The interval of the record's first entry. -/
def Acq.oldestInterval (a : Acq) : Nat := a.rcd.trigInterval.getD a.rcd.intervals - a.preValid
/-- Post-trigger entries held. -/
def Acq.postValid (a : Acq) : Nat :=
  match a.rcd.trigInterval with
  | some i => min a.post.toNat (a.rcd.intervals - i)
  | none => 0

/-- The gaps that fall within the record, counted from its first entry (R209). -/
def Acq.gapsIn (a : Acq) : List (Nat × Nat) :=
  let o := a.oldestInterval
  let e := o + a.preValid + a.postValid
  a.rcd.gaps.filterMap fun g =>
    let st := max g.1 o
    let en := min (g.1 + g.2) e
    if st < en then some (st - o, en - st) else none

/-- At most eight gap entries: from the eighth on, one covers all (R209). -/
def mergeGaps (gs : List (Nat × Nat)) : List (Nat × Nat) :=
  if gs.length ≤ 8 then gs
  else
    let st := ((gs.drop 7).headD (0, 0)).1
    let l := gs.getLastD (0, 0)
    gs.take 7 ++ [(st, l.1 + l.2 - st)]

/-- The header words of offsets 0x000 to 0x0FC (R210). -/
def Acq.headerWords (a : Acq) : List Word :=
  let r := a.rcd
  let gs := a.gapsIn
  let trig := r.trigInterval.isSome
  let t := if trig then r.trigLocal else 0
  let tk := if trig then r.trigTick else 0
  let dead := r.deadNs
  let prim := if trig then ((bitsSet 192 r.sources.toNat).head?).getD 0xFF else 0xFF
  let cell (g : Nat × Nat) : List Word :=
    let tick := r.first.getD 0 + (a.oldestInterval + g.1) * a.k * r.us * 800
    [wd g.1, wd g.2, wordOf tick 0, wordOf tick 1]
  let head := [wd a.recno,
    at' r.endCode 29 ||| flag r.safe 28 ||| flag (decide (8 ≤ gs.length)) 27 ||| flag a.mean 26 ||| wd (fld a.acqCfg 16 16),
    at' prim 16 ||| wd (a.k - 1), a.pre, wd a.preValid, a.post, wd a.postValid,
    wd (if trig then r.trigOfs else 0), wd (a.oldestInterval % max 1 a.positions), wd gs.length,
    wordOf tk 0, wordOf tk 1, wordOf (t / secUnits) 0, wordOf (t / secUnits) 1,
    wd (t % secUnits / 2 ^ 48), wd (t % 2 ^ 48 / 2 ^ 32), wordOf dead 0, wordOf dead 1, wd r.deadSamples,
    wordOf r.lostTrig.count.toNat 0, flag r.lostTrig.sat 31 ||| wd (r.lostTrig.count.toNat / 2 ^ 32), 0,
    wordOf r.firstLost 0, wordOf r.firstLost 1] ++
    (List.range 6).map (fun i => wordOf r.sources.toNat i) ++
    [wd (min 0xFFFFFFFF (gs.foldl (fun n g => n + g.2) 0)), 0] ++ ((mergeGaps gs).flatMap cell)
  head ++ List.replicate (64 - head.length) 0

/-- The words of the record seal before its tag (R225). -/
def State.sealWords (s : State) (u : Nat) : List Word :=
  [lo32 Config.devSn, hi32 Config.devSn, s.met.sealCnt, s.met.labId, at' (s.acq u).rcd.flags.toNat 24, wd u] ++
    List.replicate 8 0

/-- Entry position p holds data of the record: it was written, and lies within the PRE_VALID and POST_VALID entries (R206,
R225; log 97). -/
def Acq.holds (a : Acq) (p : Nat) : Bool :=
  let n := a.positions
  tget false a.rcd.written p && decide ((p + n - a.oldestInterval % max 1 n) % max 1 n < a.preValid + a.postValid)

/-- The record's tag (R225). -/
def State.recordTag (s : State) (u : Nat) (hdr : List Word) : List Word :=
  let a := s.acq u
  let w := a.entryBytes
  let data := (List.range a.positions).flatMap fun p =>
    if a.holds p then s.hbmRead (a.slotAddr a.recno + 0x200 + p * w) w else List.replicate w 0
  let h := Config.sha256 (wordBytes hdr ++ data)
  tagWords (Config.hmacSha256 s.met.sealKey (wordBytes (s.sealWords u) ++ bytesOf 32 h.toNat))

/-- The header is in HBM: the record counts, and the unit re-arms, waits for a free slot or ends (R201, R207, R212). -/
def State.acqHeader (u : Nat) (s : State) : State :=
  let a := s.acq u
  if a.state ≠ .final then s
  else
    let hdr := a.headerWords
    let s := s.hbmWords (a.slotAddr a.recno) (hdr ++ s.sealWords u ++ s.recordTag u hdr)
    let s := s.noticeTo (s.unitOwner u) 0x07 u s.now a.recno
    let wr := (a.wr + 1) % 2 ^ 64
    let stop := a.finalIdle
    let last := a.nrec ≠ 0 ∧ a.recno + 1 = a.nrec.toNat
    let free := decide (wr - a.rd < a.cfg.nslot)
    s.modAcq u fun x => { x with
      wr := wr, recno := x.recno + 1, rcd := {}, qualLatched := false, finalIdle := false, armAt := s.grid,
      heldSeen := x.heldSeen || (!stop && !decide last && !free),
      state := if stop then .idle else if last then .done else if free then .pre else .held }

/-- A value of ACQ_RD acts (R212). -/
def State.acqRead (u v : Nat) (s : State) : State :=
  let a := s.acq u
  if v < a.rd ∨ a.wr < v then s.acqRefuse u 7
  else s.modAcq u fun x => { x with
    rd := v,
    state := if x.state = .held ∧ a.rd < v then .pre else x.state,
    armAt := if x.state = .held ∧ a.rd < v then s.grid else x.armAt }

/-- A write of ACQ_CTRL: STOP in bit 1, ARM in bit 0, the higher bit first. -/
def State.acqCtrl (u : Nat) (v : Word) (s : State) : State :=
  let s := if bit v 1 then s.acqStop u else s
  if bit v 0 then s.acqArm u else s

/-- ACQ_START: the start event reaches the unit (R202). A start pulse on its way arrives first. -/
def State.acqStart (u : Nat) (s : State) : State :=
  match (s.acq u).state, (s.acq u).startAt with
  | .waitStart, none =>
    let due := ((s.trigx.inflight.filter fun p => p.2.1 = 96 + u).map (·.1)).min?
    match due with
    | some t => (s.advanceTo t).acqStartNow u
    | none => s
  | _, _ => s.acqStartNow u

end Sys2Proof.Machine
end

