-- ==== Sys2Proof/Machine/Channel.lean ====
section
/-! DEFINITION. The pin channels: safe state, the channel parameter memory and its window, the PPMU clamps and the converters (R37 to R71, R341, R413). -/

namespace Sys2Proof.Machine

/-! ## Safe state (R54 to R57) -/

/-- A cause of R55 holds lane l of bench b in safe state. -/
def State.safeCause (s : State) (b l : Nat) : Bool :=
  !(s.bench b).awake || (match s.benchOwner b with
    | some p => s.img.activeValid && (s.port p).orphan
    | none => false) ||
  (match s.siteOf b l with
    | some i => (s.site i).state != .normal
    | none => false) ||
  (s.chan b l).faultHold || s.pwr.pstate == .fault || (s.chan b l).hvChange.isSome

/-- The vectors in flight learn that lane l of bench b enters or leaves safe state now (R56, R352). -/
def State.flipSafe (b l : Nat) (s : State) : State :=
  s.modBench b fun x => { x with flight := x.flight.map fun f =>
    { f with lanes := f.lanes.mapIdx fun i v => if i = l then { v with flips := (5000 * s.now) :: v.flips } else v } }

/-- A channel in safe state takes the form PARK or HIZ (R54): on lanes 0 to 6 the PPMU forces PARK_V or is disconnected;
lane 7 in PARK forces once its discharge phase has ended, and in HIZ keeps its discharge path. -/
def Chan.safeForm (c : Chan) (park : Bool) (l : Nat) : Chan :=
  if l ≠ 7 then { c with ppmuOn := park, parkForce := park }
  else if park then c
  else { c with discharge := true, ppmuOn := false, parkForce := false }

/-- Lane l of bench b enters safe state (R54, R56). -/
def State.enterSafe (b l : Nat) (s : State) : State :=
  if (s.chan b l).inSafe then s
  else
    let park := (s.lane b l).park
    ((s.flipSafe b l).unitSafe (b / 2) (8 * (b % 2) + l)).modChan b l fun c => ({ c with
      inSafe := true, drvOn := false, loadOn := false, clamp := false, switch := none,
      discharge := l == 7, dischargeEnd := s.now + 800000, ppmuOn := false, parkForce := false } : Chan).safeForm park l

/-- Every lane of a bench enters safe state. -/
def State.benchSafe (b : Nat) (s : State) : State := s.each (List.range 8) (State.enterSafe b)

/-- Lane l of bench b leaves safe state and takes the settings of the parameter memory (R57). -/
def State.leaveSafe (b l : Nat) (s : State) : State :=
  if !(s.chan b l).inSafe || s.safeCause b l then s
  else
    let p := s.lane b l
    ((s.flipSafe b l).unitSafe (b / 2) (8 * (b % 2) + l)).modChan b l fun c => { c with
      inSafe := false, drvOn := false, discharge := false, parkForce := false, ppmuOn := p.pmu,
      loadOn := p.loadEn && !p.pmu && !p.hv, clamp := false, switch := none, undriven := false }

/-- Writes of 1 to RELEASE (R57). -/
def State.release (b : Nat) (v : Word) (s : State) : State :=
  if s.running b then s
  else s.each ((List.range 8).filter fun l => bit v (8 + l)) (State.leaveSafe b)

/-! ## The parameter memory (R58 to R68) -/

/-- Settling time in ticks of a change to a word of a lane (R71). -/
def settleTicks (p : LaneP) (off : Nat) : Nat :=
  match off with
  | 0x00 | 0x04 => if p.hv then ticksNs 5000 else ticksNs 400
  | 0x08 => ticksNs 400
  | 0x0C | 0x10 => ticksNs 200
  | 0x14 | 0x18 | 0x1C => ticksNs 1000
  | 0x20 =>
    if p.force = 2 then
      ticksNs (match p.irange with | 4 => 30000 | 3 => 100000 | 2 => 300000 | 1 => 1000000 | _ => 3000000)
    else if p.force = 1 then ticksNs (match p.irange with | 4 => 20000 | 3 => 20000 | 2 => 50000 | _ => 500000)
    else 0
  | _ => 0

/-- The switching sequence that a change of a lane's words starts, with its length in ticks (R70). A change of MODE opens
everything; of two changes of a PPMU in PMU mode that of FORCE decides. -/
def switchOf (p q : LaneP) : Option (Switch × Nat) :=
  if p.pmu != q.pmu then some (.opened, ticksNs 1000)
  else if !q.pmu then none
  else if p.force ≠ q.force then
    if q.force = 0 then some (.releasing, ticksNs 1000)
    else if p.force = 0 then none
    else some (.held, ticksNs 5000)
  else if p.irange ≠ q.irange then
    if q.force = 2 then some (.handover, ticksNs 10000) else if q.force = 1 then some (.ranging, ticksNs 10000) else none
  else none

/-- A word of lane l of bench b is replaced and acts on the channel (R66). A change of HV_MODE takes 20 µs in safe state
(R44). While everything is open after a change of MODE, a change of FORCE or IRANGE waits for the connection (R70). -/
def State.laneStore (b l off : Nat) (v : Word) (s : State) : State :=
  let p := s.lane b l
  let c := s.chan b l
  let q := p.set off (v &&& laneMask l off)
  let target := match c.hvChange with
    | some x => x.2.1
    | none => p.hv
  let hvNew := decide (off = 0x38) && (q.hv != target)
  let kept := if off = 0x38 then q.withHv p.hv else q
  let s := s.modLane b l fun _ => kept
  let was := match c.hvChange with
    | some y => y.2.2
    | none => c.inSafe
  let s := if hvNew then
      (s.enterSafe b l).modChan b l fun x => { x with hvChange := some (s.now + 16000, q.hv, was) }
    else s
  let sw := switchOf p kept
  let opened := match c.switch with
    | some (.opened, t) => decide (s.now < t)
    | _ => false
  let s := s.modChan b l fun x => { x with
    settleEnd := max x.settleEnd (s.now + settleTicks kept off + ((sw.map (·.2)).getD 0)) }
  let s := if (s.chan b l).inSafe then s
    else s.modChan b l fun x => { x with
      drvOn := x.drvOn && !kept.pmu, ppmuOn := kept.pmu,
      loadOn := kept.loadEn && !kept.pmu && !kept.hv && !(x.drvOn && !kept.pmu),
      switch := match sw with
        | some k => if opened && k.1 != .opened then x.switch else some (k.1, s.now + k.2)
        | none => x.switch,
      undriven := if p.pmu != kept.pmu then p.pmu else x.undriven }
  if p.adcCfg ≠ kept.adcCfg ∨ p.pmu ≠ kept.pmu ∨ p.force ≠ kept.force ∨ p.measI ≠ kept.measI ∨ p.irange ≠ kept.irange
  then s.converterChange b l else s

/-- The code with which a write of the word at offset off of lane l is refused, 0 for none (R66). Where several apply, the
code is that of the first of RUNNING, ADDR, IMAGE_FIXED, NONFINITE, MODE, RANGE and CONSTRAINT (log 28). During a change of
HV_MODE the written block must be legal in both modes, and beside lane 7 in both. -/
def State.peCode (s : State) (b l off : Nat) (v : Word) : Nat :=
  let p := s.lane b l
  let w := v &&& laneMask l off
  if s.running b then 4
  else if (p.get off).isNone then 6
  else if off = 0x38 ∧ fld w 10 2 ≠ fld p.chCfg 10 2 then 5
  else
    let x := s.bench b
    let forms := if off = 0x38 then [p.set off w] else (x.laneForms l).map fun q => q.set off w
    firstCode (forms.flatMap fun q => (x.laneForms (otherLane l)).map fun o => laneCode q o x.tmg l off w)

/-- A refused access of the PE window (R66). -/
def State.peErr (b code off : Nat) (s : State) : State :=
  s.modPe b fun w => { w with err := true, errCode := code, errAddr := off }

/-- The window's ADDR after an access (R68). -/
def State.peStep (b : Nat) (s : State) : State :=
  s.modPe b fun w =>
    if !w.inc || w.past then w else if w.addr = 0x1FF then { w with past := true } else { w with addr := w.addr + 1 }

/-- Byte offset of the next access. -/
def PeWin.off (w : PeWin) : Nat := if w.past then 0x800 else 4 * w.addr

/-- A write of BENCH_PE_DATA (R66, R68). -/
def State.peWrite (b : Nat) (v : Word) (s : State) : State :=
  let o := (s.bench b).pe.off
  let l := o / 0x100
  let c := if o = 0x800 then 6 else s.peCode b l (o % 0x100) v
  (if c = 0 then (s.laneStore b l (o % 0x100) v).unitJudge (b / 2) else s.peErr b c o).peStep b

/-- The words of a lane as written: during a change of HV_MODE the memory holds the new setting while the lane holds the old
one (R44, R66). -/
def State.laneWords (s : State) (b l : Nat) : LaneP :=
  match (s.chan b l).hvChange with
  | none => s.lane b l
  | some x => (s.lane b l).withHv x.2.1

/-- A read of BENCH_PE_DATA (R68): the word exactly as written (R66). -/
def State.peRead (b : Nat) (s : State) : Word × State :=
  let o := (s.bench b).pe.off
  match if o = 0x800 then none else (s.laneWords b (o / 0x100)).get (o % 0x100) with
  | some v => (v, s.peStep b)
  | none => (0, (s.peErr b 6 o).peStep b)

/-! ## Timed ends -/

/-- The 20 µs of an HV_MODE change end (R44). -/
def State.hvEnd (b : Nat) (s : State) : State :=
  match (s.chan b 7).hvChange with
  | none => s
  | some (t, hv, was) =>
    let s := s.advanceTo t
    let s := s.modLane b 7 fun p => p.withHv hv
    let s := s.modChan b 7 fun c => { c with hvChange := none }
    if was then s else s.leaveSafe b 7

/-- The discharge phase of lane 7 ends: in PARK the path opens and the PPMU forces PARK_V (R54, R56). -/
def State.dischargeDone (b : Nat) (s : State) : State :=
  let c := s.chan b 7
  if c.inSafe && c.discharge && (s.lane b 7).park then
    (s.advanceTo c.dischargeEnd).modChan b 7 fun c => { c with discharge := false, ppmuOn := true, parkForce := true }
  else s

/-! ## Clamps and converters (R50, R53) -/

/-- The switching sequence of lane l of bench b still in progress (R70). -/
def State.switching (s : State) (b l : Nat) : Option Switch :=
  match (s.chan b l).switch with
  | some (k, t) => if s.now < t then some k else none
  | none => none

/-- Lane l of bench b is in safe state: not while a CAL job holds it (R57, R65, R88). -/
def State.isSafe (s : State) (b l : Nat) : Bool := (s.chan b l).inSafe && !s.inCal b

/-- The PPMU of a channel is connected to its pin: it is not while everything is open, nor under a CAL job (R37, R54, R70, R88,
R370). -/
def State.connected (s : State) (b l : Nat) : Bool :=
  s.top.cwRun || (!s.inCal b && ((s.chan b l).parkForce ||
    ((s.chan b l).ppmuOn && !(s.chan b l).inSafe && s.switching b l != some .opened)))

/-- The PPMU of a channel forces its pin. -/
def State.forcing (s : State) (b l : Nat) : Bool :=
  s.connected b l && ((s.acting b l).force != 0 || s.switching b l == some .releasing)

/-- The clamps of a PPMU and its current range: during every switch the pin voltage stays within VCLAMP_LO and VCLAMP_HI and the
current within ICLAMP_LO, ICLAMP_HI and the full scale of the range (R50, R70). -/
structure Clamps where
  irange : Nat
  vlo : Word
  vhi : Word
  ilo : Word
  ihi : Word
  deriving DecidableEq, Repr

/-- The clamps that a lane's words set. -/
def LaneP.clamps (p : LaneP) : Clamps :=
  { irange := p.irange, vlo := p.vclampLo, vhi := p.vclampHi, ilo := p.iclampLo, ihi := p.iclampHi }

/-- What the PPMU holds at a pin: nothing; during a switch, under the clamps, the present voltage (a change between FV and FI or to
OFF), the clamped voltage (a handover of current ranges), or a voltage while its ranges make before they break; and else a voltage
or current with the range and clamps that go with it (R50, R54, R70, R370). -/
inductive Force where
  | none
  | hold (c : Clamps)
  | clamped (c : Clamps)
  | ranging (v : Word) (c : Clamps)
  | volts (v : Word) (irange : Nat) (lo hi : Word)
  | amps (i : Word) (irange : Nat) (lo hi : Word)
  deriving DecidableEq, Repr

/-- What the PPMU of lane l of bench b holds at its pin now. -/
def State.force (s : State) (b l : Nat) : Force :=
  let p := s.acting b l
  if !s.forcing b l then .none
  else match s.switching b l with
    | some .held | some .releasing => .hold p.clamps
    | some .handover => .clamped p.clamps
    | some .ranging => .ranging p.ppmuForce p.clamps
    | _ => if p.force = 1 then .volts p.ppmuForce p.irange p.iclampLo p.iclampHi
      else .amps p.ppmuForce p.irange p.vclampLo p.vclampHi

/-- What the driver presents to a pin: a level, the steps of a CAL job between two levels, 50 Ω to VTT, or high impedance. -/
inductive DriverOut where
  | level (v : Word)
  | steps (lo hi : Word)
  | term (v : Word)
  | hiZ
  deriving DecidableEq, Repr

/-- The driver of lane l of bench b while it is on or off (R41, R88): high impedance in safe state, in PMU mode, while Contact
Watch runs, and from a change to DIGITAL mode to its first drive edge, whatever OFF_MODE says. -/
def State.driverOut (s : State) (b l : Nat) : DriverOut :=
  let c := s.chan b l
  let p := s.acting b l
  if s.inCal b && !s.top.cwRun then .steps p.vil p.vih
  else if c.inSafe || p.pmu || s.switching b l == some .opened then .hiZ
  else if c.drvOn then .level (if c.drvLevel then p.vih else p.vil)
  else if p.term && !c.undriven then .term p.vtt
  else .hiZ

/-- The active load of lane l of bench b is on: not in PMU mode, under a CAL job, under Contact Watch, nor while everything is open
(R37, R47, R70, R88, R370). -/
def State.loading (s : State) (b l : Nat) : Bool :=
  let p := s.acting b l
  (s.chan b l).loadOn && p.loadEn && !p.pmu && s.switching b l != some .opened

/-- The current that the active load sinks from a pin at voltage v, both times 2^149, 0 with the load off: IOL above VCOM,
−IOH below it, and linear from −IOH to IOL over VCOM ± 50 mV (R47). -/
def State.loadCurrent (s : State) (b l : Nat) (v : Int) : Int :=
  let p := s.lane b l
  let x := v - f32Num p.vcom
  let h := f32Dec 5 100
  if !s.loading b l then 0
  else if h ≤ x then f32Num p.iol
  else if x ≤ -h then -(f32Num p.ioh)
  else (f32Num p.iol * (x + h) - f32Num p.ioh * (h - x)) / (2 * h)

/-- The PPMU enters a clamp. -/
def State.clampIn (b l : Nat) (s : State) : State :=
  if s.forcing b l then s.modChan b l fun c => { c with clamp := true, clampSeen := true } else s

/-- The PPMU leaves its clamp. -/
def State.clampOut (b l : Nat) (s : State) : State := s.modChan b l fun c => { c with clamp := false }

/-- Exactly n raw codes: those given, and free ones for what is missing (R53). -/
def State.fillCodes {k : Nat} : Nat → List (BitVec k) → State → List (BitVec k) × State
  | 0, _, s => ([], s)
  | n + 1, cs, s =>
    let (c, s) := match cs.head? with
      | some c => (c, s)
      | none => (BitVec.ofNat k s.free.1, s.free.2)
    let (r, s) := State.fillCodes n cs.tail s
    (c :: r, s)

/-- The samples of a lane's average that ends at grid point f, its converter restarted at r: 2^AVG_LOG2, or in the first average
after a restart those taken since (R53, R198). -/
def LaneP.samples (p : LaneP) (r f : Nat) : Nat := min p.avg (f / (800 * p.sampleUs) - r / (800 * p.sampleUs))

/-- The channel's next result: the one whose average ends now, or else the next to end (R53, R198). The raw codes of its
samples go to the metrology die, and the four latest results are kept for their consumers. -/
def State.adcNext (b l : Nat) (codes : List (BitVec 18)) (s : State) : State :=
  if !s.powered || !s.met.running then s
  else
    let p := s.acting b l
    let i := p.resultUs
    let c := s.chan b l
    let last := max (c.adcRestart.getD 0) (((c.adcResults.head?).map (·.1)).getD 0)
    let here := s.grid / (800 * i) * (800 * i)
    let f := if last < here then here else gridAfter i last
    let s := s.advanceTo (s.now + (f - s.grid))
    let (codes, s) := s.fillCodes (p.samples (c.adcRestart.getD 0) f) codes
    let v := s.adcResult b l codes
    s.modChan b l fun c => { c with adcResults := ((f, v) :: c.adcResults).take 4 }

end Sys2Proof.Machine
end

