-- ==== Sys2Proof/Machine/Timing.lean ====
section
/-! DEFINITION. The timing library window, the slot map and the deskew registers (R80 to R92). -/

namespace Sys2Proof.Machine

/-- A refused access of the TMG sub-block (R92). -/
def State.tmgErr (b code off : Nat) (s : State) : State :=
  s.modTmg b fun t => { t with err := true, errCode := code, errAddr := off }

/-- The slot map of a bench after a write of one of its registers (R82). -/
def Tmg.withSlots (t : Tmg) (hi : Bool) (v : Word) : Tmg :=
  if hi then { t with slotHi := v &&& 0x3F3F3F3F, mappedHi := true }
  else { t with slotLo := v &&& 0x3F3F3F3F, mappedLo := true }

/-- The code with which a direct write of the slot map is refused, 0 for none (R82, R84). -/
def State.slotCode (s : State) (b : Nat) (hi : Bool) (v : Word) : Nat :=
  let x := s.bench b
  let t := x.tmg.withSlots hi v
  if s.running b then 7
  else
    let c := mapCode { x with tmg := t } (s.bw b)
    if c ≠ 0 then c
    else match s.gangOf b with
      | none => 0
      | some g =>
        if x.seq.state = .armed ∧ (s.gangBenches g).any fun o => o ≠ b && (s.bench o).tmg.periods != t.periods then 0xC
        else 0

/-- A direct write of BENCH_TMG_SLOT_LO or _HI (R82). -/
def State.slotWrite (b : Nat) (hi : Bool) (v : Word) (s : State) : State :=
  let c := s.slotCode b hi v
  if c = 0 then s.modTmg b fun t => t.withSlots hi v else s.tmgErr b c (if hi then 0x804 else 0x800)

/-- A library word of one bench replaced. -/
def State.libStore (b off : Nat) (v : Word) (s : State) : State :=
  s.modTmg b fun t => { t with lib := tput t.lib off (v &&& libMask off) }

/-- Whether bench b would keep R78 to R80 and R40 with a library word replaced: 0, or the code of R92. An entry that is
not mapped is not checked (R80). -/
def State.libCheck (s : State) (b off : Nat) (v : Word) : Nat :=
  let x := s.bench b
  if x.tmg.mapped.contains (off / 0x200) then
    let c := mapCode { x with tmg := { x.tmg with lib := tput x.tmg.lib off (v &&& libMask off) } } (s.bw b)
    if c = 8 then 5 else c
  else 0

/-- The benches that a write of a library word reaches: PERIOD is shared by the gang (R84). -/
def State.libBenches (s : State) (b off : Nat) : List Nat :=
  match s.gangOf b with
  | some g => if off % 0x200 = 0 then s.gangBenches g else [b]
  | none => [b]

/-- The mapped periods of bench b with a library word replaced. -/
def State.libPeriods (s : State) (b off : Nat) (v : Word) : List (Option Nat) :=
  let t := (s.bench b).tmg
  Tmg.periods { t with lib := tput t.lib off (v &&& libMask off) }

/-- The code with which a window write of a library word is refused, 0 for none (R80, R83, R84). A write of PERIOD that would
leave the mapped periods of an ARMED gang unequal, because its benches map different entries, is refused with MISMATCH, since R14
has them equal whenever the gang is ARMED (log 85). -/
def State.libCode (s : State) (b off : Nat) (v : Word) : Nat :=
  let bs := s.libBenches b off
  if !libWord off then 9
  else if s.running b ∧ bs.any fun o => (s.bench o).tmg.mapped.contains (off / 0x200) then 7
  else
    let c := s.libCheck b off v
    if c ≠ 0 then c
    else if bs.any fun o => s.libCheck o off v != 0 then 0xA
    else if off % 0x200 = 0 ∧ (s.bench b).seq.state = .armed ∧ bs.any fun o => s.libPeriods o off v != s.libPeriods b off v then 0xC
    else 0

/-- Byte offset of the next access. -/
def Tmg.off (t : Tmg) : Nat := if t.past then 0x8000 else 4 * t.addr

/-- The window's ADDR after an access (R92). -/
def State.tmgStep (b : Nat) (s : State) : State :=
  s.modTmg b fun t =>
    if !t.inc || t.past then t else if t.addr = 0x1FFF then { t with past := true } else { t with addr := t.addr + 1 }

/-- A write of BENCH_TMG_DATA. -/
def State.tmgWrite (b : Nat) (v : Word) (s : State) : State :=
  let o := (s.bench b).tmg.off
  let c := if o = 0x8000 then 9 else s.libCode b o v
  (if c = 0 then s.each (s.libBenches b o) fun x => State.libStore x o v else s.tmgErr b c o).tmgStep b

/-- A read of BENCH_TMG_DATA. -/
def State.tmgRead (b : Nat) (s : State) : Word × State :=
  let o := (s.bench b).tmg.off
  if o ≠ 0x8000 ∧ libWord o then (tget 0 (s.bench b).tmg.lib o, s.tmgStep b)
  else (0, (s.tmgErr b 9 o).tmgStep b)

/-- A write of BENCH_TMG_DSK(l) (R87): reserved bits are ignored. -/
def State.dskWrite (b l : Nat) (v : Word) (s : State) : State :=
  if s.running b then s.tmgErr b 7 (0x840 + 4 * l) else s.modChan b l fun c => { c with dsk := v &&& 0x3FFF3FFF }

/-- BENCH_TMG_ENTRY_VALID: entry n passes R78 for bench b. During a change of HV_MODE it must pass in both modes (log 29). -/
def State.entryValid (s : State) (b n : Nat) : Bool :=
  entryCode (s.bench b).tmg.lib (s.bw b) ((s.bench b).lane7s.any (·.hv)) n == 0

/-- BENCH_TMG_INTDLY(l) of channel c (R90). -/
def intDly (c : Nat) : Word := at' (Config.tCmp c) 16 ||| wd (Config.tDrv c)

end Sys2Proof.Machine
end

