-- ==== Sys2Proof/Machine/Apg.lean ====
section
/-! DEFINITION. The algorithmic pattern generator: its operations, limit flags, scrambling, bit maps, registers and windows (R129 to R149). -/

namespace Sys2Proof.Machine

/-! ## Operations (R133 to R138) -/

/-- A stepping operation within limits (R134): the result modulo 2^w, and whether it wrapped. -/
def apgStep (w : Nat) (up : Bool) (x a lo hi : Nat) : Nat × Bool :=
  let d : Int := if up then a else -(a : Int)
  if lo ≤ x ∧ x ≤ hi then
    let span := hi - lo + 1
    let r : Int := (x : Int) - lo + d
    (lo + (r % span).toNat, decide ((span : Int) ≤ r) || decide (r < 0))
  else ((((x : Int) + d) % 2 ^ w).toNat, false)

/-- An XOP or YOP on a register of width w (R133). -/
def apgOp (w op x b i lo hi : Nat) : Nat × Bool :=
  let m := 2 ^ w
  match op with
  | 0 => (x, false)
  | 1 => apgStep w true x 1 lo hi
  | 2 => apgStep w false x 1 lo hi
  | 3 => apgStep w true x i lo hi
  | 4 => apgStep w false x i lo hi
  | 5 => (b, false)
  | 6 => (lo, false)
  | 7 => (hi, false)
  | 8 => ((lo + hi + m - x) % m, false)
  | 9 => (x ^^^ i, false)
  | 10 => ((b + i) % m, false)
  | 11 => ((b + m - i) % m, false)
  | 12 => (x * 2 % m, false)
  | 13 => (x / 2, false)
  | 14 => (x * 2 % m + x / (m / 2), false)
  | _ => (x / 2 + x % 2 * (m / 2), false)

/-- ZOP (R136). -/
def zOp (op z c : Nat) (wrap : Bool) : Nat :=
  match op with
  | 0 => z
  | 1 => (z + 1) % 256
  | 2 => (z + 255) % 256
  | 3 => 0
  | 4 => if wrap then (z + 1) % 256 else z
  | 5 => if wrap then (z + 255) % 256 else z
  | 6 => 255 - z
  | _ => c

/-- DOP (R136). -/
def dOp (op : Nat) (d db : Word) : Word :=
  match op with
  | 0 => d
  | 1 => ~~~d
  | 2 => db
  | 3 => ~~~db
  | 4 => d <<< 1
  | 5 => (d <<< 1) ||| 1
  | 6 => d.rotateLeft 1
  | _ => d.rotateRight 1

/-- DBOP (R136). -/
def dbOp (op : Nat) (d db : Word) : Word :=
  match op with
  | 0 => db
  | 1 => ~~~db
  | 2 => d
  | _ => 0

/-- XBOP or YBOP on a base of width w (R136). -/
def baseOp (w op x b i : Nat) : Nat :=
  match op with
  | 0 => b
  | 1 => x
  | 2 => (b + i) % 2 ^ w
  | _ => (b + 1) % 2 ^ w

/-- What the applications of a beat have done so far: X or Y wrapped, X or Y carried out an operation (R138). -/
structure ApgDone where
  wx : Bool := false
  wy : Bool := false
  dx : Bool := false
  dy : Bool := false

/-- One application of an APGOP field: every operation reads the state before it (R135). -/
def apgApply (f : Nat) (r : ApgRegs) (n : ApgDone) : ApgRegs × ApgDone :=
  let xop := bitsOf f 60 4
  let yop := bitsOf f 56 4
  let ch := f.testBit 55
  let fastY := f.testBit 54
  let rx := apgOp 24 xop r.x.toNat r.xb.toNat r.xi.toNat r.xLo.toNat r.xHi.toNat
  let ry := apgOp 20 yop r.y.toNat r.yb.toNat r.yi.toNat r.yLo.toNat r.yHi.toNat
  let goX := !(ch && fastY) || ry.2
  let goY := !(ch && !fastY) || rx.2
  let wx := goX && rx.2
  let wy := goY && ry.2
  let carry := if ch && !fastY then wy else wx
  ({ r with
      x := if goX then wd rx.1 else r.x
      y := if goY then wd ry.1 else r.y
      z := wd (zOp (bitsOf f 51 3) r.z.toNat r.c.toNat carry)
      d := dOp (bitsOf f 48 3) r.d r.db
      db := dbOp (bitsOf f 46 2) r.d r.db
      xb := wd (baseOp 24 (bitsOf f 44 2) r.x.toNat r.xb.toNat r.xi.toNat)
      yb := wd (baseOp 20 (bitsOf f 42 2) r.y.toNat r.yb.toNat r.yi.toNat) },
   { wx := n.wx || wx, wy := n.wy || wy, dx := n.dx || (goX && xop != 0), dy := n.dy || (goY && yop != 0) })

/-- A limit flag after a beat with operations (R138). -/
def apgFlag (mode : Nat) (old wrapped did : Bool) (x lo hi b : Word) : Bool :=
  match mode with
  | 0 => if wrapped then true else if did then false else old
  | 1 => x == hi
  | 2 => x == lo
  | _ => x == b

/-- Step 6 of R130. -/
def Apg.flags (a : Apg) (n : ApgDone) : Apg :=
  let r := a.regs
  { a with ax := apgFlag (fld r.cfg 20 2) a.ax n.wx n.dx r.x r.xLo r.xHi r.xb,
           ay := apgFlag (fld r.cfg 24 2) a.ay n.wy n.dy r.y r.yLo r.yHi r.yb }

/-- Preset p replaces X to C (R130, R147). -/
def Apg.preset (a : Apg) (p : Nat) : Apg :=
  let w (k : Nat) : Word := tget 0 a.presets (16 * p + k)
  { a with regs := { a.regs with
    x := w 0, xb := w 1, xi := w 2, y := w 3, yb := w 4, yi := w 5, z := w 6, d := w 7, db := w 8, c := w 9 } }

/-! ## Scrambling, topology and bit maps (R139 to R145) -/

/-- Parity of a number below 2^32. -/
def parity (n : Nat) : Bool := (List.range 32).foldl (fun p i => p ^^ n.testBit i) false

end Sys2Proof.Machine

namespace Sys2Proof
open Sys2Proof.Machine

/-- Row i of the scramble matrix; the identity where none is listed (R140). -/
def ApgRegs.row (r : ApgRegs) (i : Nat) : Nat := ((tfind r.scr i).getD (wd (2 ^ i))).toNat

end Sys2Proof

namespace Sys2Proof.Machine

/-- The low w bits of a, and above them those of b. -/
def overlay (w a b : Nat) : Nat := a % 2 ^ w + b / 2 ^ w * 2 ^ w

/-- Entry of the column table; the identity where none is listed (R141). -/
def clutAt (t : Tab Word) (i : Nat) : Nat := ((tfind t i).getD (wd i)).toNat

end Sys2Proof.Machine

namespace Sys2Proof
open Sys2Proof.Machine

/-- Widths of R139. -/
def ApgRegs.xw (r : ApgRegs) : Nat := fld r.cfg 0 5
def ApgRegs.yw (r : ApgRegs) : Nat := fld r.cfg 8 5
def ApgRegs.zw (r : ApgRegs) : Nat := fld r.cfg 16 4

/-- A logical or physical address packed by the widths (R139). -/
def ApgRegs.pack (r : ApgRegs) (x y z : Nat) : Nat :=
  x % 2 ^ r.xw + y % 2 ^ r.yw * 2 ^ r.xw + z % 2 ^ r.zw * 2 ^ (r.xw + r.yw)

end Sys2Proof

namespace Sys2Proof.Machine

/-- The APG snapshot as resolved from the present registers (R139 to R142, R145). -/
def Apg.snap (a : Apg) : Snap :=
  let r := a.regs
  let x := r.x.toNat
  let y := r.y.toNat
  let z := r.z.toNat
  let la := r.pack x y z
  let pa := (List.range 32).foldl (fun n i => n + if parity (la &&& r.row i) then 2 ^ i else 0) 0
  let px := overlay r.xw pa x
  let py := overlay r.yw (pa / 2 ^ r.xw) y
  let pz := overlay r.zw (pa / 2 ^ (r.xw + r.yw)) z
  let k := min r.yw 12
  let py' := if bit r.cfg 28 then overlay k (clutAt a.clut (py % 2 ^ k)) py else py
  let pa' := overlay r.xw pa 0 + py' % 2 ^ r.yw * 2 ^ r.xw + pa / 2 ^ (r.xw + r.yw) * 2 ^ (r.xw + r.yw)
  let inv := if parity (pa' &&& r.topo.toNat) then r.topoIo else 0
  { x := r.x, y := r.y, z := r.z, px := wd px, py := wd py', pz := wd pz, td := r.d ^^^ r.db ^^^ inv, c := r.c }

/-- The lane's APG bit (R143). -/
def mapBit (m : Word) (s : Snap) : Bool :=
  let n := fld m 0 5
  match fld m 8 4 with
  | 1 => bit s.px n
  | 2 => bit s.py n
  | 3 => bit s.pz n
  | 4 => bit s.x n
  | 5 => bit s.y n
  | 6 => bit s.z n
  | 7 => bit s.td n
  | 8 => bit s.c n
  | _ => false

/-- The expected bit of code 0x7 (R144). -/
def expBit (m : Word) (s : Snap) (src : Nat) (d db : Word) : Bool :=
  if fld m 8 4 = 7 then
    match src with
    | 0 => bit s.td (fld m 0 5)
    | 1 => bit (d ^^^ db) (fld m 0 5)
    | _ => bit db (fld m 0 5)
  else mapBit m s

/-! ## Registers (R148, R149) -/

/-- The bits of APG_CFG that are not reserved. -/
def apgCfgMask : Word := 0x133F1F1F

/-- Widths of the registers at offsets 0x400 to 0x434, and of preset words 0 to 9. -/
def apgWidth : List Nat := [24, 24, 24, 20, 20, 20, 8, 32, 32, 8, 24, 24, 20, 20]

end Sys2Proof.Machine

namespace Sys2Proof
open Sys2Proof.Machine

/-- The register at an APG offset. -/
def ApgRegs.get (r : ApgRegs) (off : Nat) : Word :=
  match off with
  | 0x400 => r.x | 0x404 => r.xb | 0x408 => r.xi | 0x40C => r.y | 0x410 => r.yb | 0x414 => r.yi | 0x418 => r.z
  | 0x41C => r.d | 0x420 => r.db | 0x424 => r.c | 0x428 => r.xLo | 0x42C => r.xHi | 0x430 => r.yLo | 0x434 => r.yHi
  | 0x440 => r.cfg | 0x448 => r.topo | 0x44C => r.topoIo
  | _ => if 0x480 ≤ off ∧ off < 0x500 then wd (r.row ((off - 0x480) / 4)) else 0

/-- The registers with the one at an offset replaced. -/
def ApgRegs.set (r : ApgRegs) (off : Nat) (v : Word) : ApgRegs :=
  match off with
  | 0x400 => { r with x := v } | 0x404 => { r with xb := v } | 0x408 => { r with xi := v } | 0x40C => { r with y := v }
  | 0x410 => { r with yb := v } | 0x414 => { r with yi := v } | 0x418 => { r with z := v } | 0x41C => { r with d := v }
  | 0x420 => { r with db := v } | 0x424 => { r with c := v } | 0x428 => { r with xLo := v } | 0x42C => { r with xHi := v }
  | 0x430 => { r with yLo := v } | 0x434 => { r with yHi := v } | 0x440 => { r with cfg := v &&& apgCfgMask }
  | 0x448 => { r with topo := v } | 0x44C => { r with topoIo := v }
  | _ => if 0x480 ≤ off ∧ off < 0x500 then { r with scr := tput r.scr ((off - 0x480) / 4) v } else r

/-- The registers obey R129, R139 and the limit order: 0 or the code of R149 they break; of several the first of the list
(log 28). -/
def ApgRegs.code (r : ApgRegs) : Nat :=
  if (List.range 14).any fun i => 2 ^ (apgWidth.getD i 32) ≤ (r.get (0x400 + 4 * i)).toNat then 1
  else if r.xHi < r.xLo ∨ r.yHi < r.yLo then 2
  else if 24 < r.xw ∨ 20 < r.yw ∨ 8 < r.zw ∨ 32 < r.xw + r.yw + r.zw then 3
  else 0

end Sys2Proof

namespace Sys2Proof.Machine

/-- The benches that share APG state with bench b (R146). -/
def State.apgBenches (s : State) (b : Nat) : List Nat :=
  match s.gangOf b with
  | some g => s.gangBenches g
  | none => [b]

/-- A refused access of the APG sub-block. -/
def State.apgErr (b code off : Nat) (s : State) : State :=
  s.modApg b fun a => { a with err := true, errCode := code, errAddr := off }

/-- A direct write of an APG register (R148, R149): RUNNING comes before the other codes (log 28). -/
def State.apgWrite (b off : Nat) (v : Word) (s : State) : State :=
  if s.running b then s.apgErr b 4 off
  else
    let c := ((s.bench b).apg.regs.set off v).code
    if c ≠ 0 then s.apgErr b c off
    else s.each (s.apgBenches b) fun x => State.modApg x fun a => { a with regs := a.regs.set off v }

/-- Byte offset of the next access of the column table window, and of the preset window. -/
def Apg.clutOff (a : Apg) : Nat := if a.clutPast then 0x4000 else 4 * a.clutAddr
def Apg.preOff (a : Apg) : Nat := if a.prePast then 0x400 else 4 * a.preAddr

/-- The preset window stands past its end or at a reserved word (R147, R149). -/
def Apg.preBad (a : Apg) : Bool := a.prePast || decide (10 ≤ a.preAddr % 16)

/-- The window ADDR after an access (R149). -/
def State.clutStep (b : Nat) (s : State) : State :=
  s.modApg b fun a =>
    if !a.clutInc || a.clutPast then a
    else if a.clutAddr = 0xFFF then { a with clutPast := true } else { a with clutAddr := a.clutAddr + 1 }
def State.preStep (b : Nat) (s : State) : State :=
  s.modApg b fun a =>
    if !a.preInc || a.prePast then a
    else if a.preAddr = 0xFF then { a with prePast := true } else { a with preAddr := a.preAddr + 1 }

/-- An access of APG_CLUT_DATA, a write of a word or a read (R149). Where several codes apply, ADDR comes before RUNNING and
RUNNING before WIDTH (log 28). -/
def State.clutAccess (b : Nat) (wr : Option Word) (s : State) : Word × State :=
  let a := (s.bench b).apg
  let o := a.clutOff
  if o = 0x4000 then (0, (s.apgErr b 5 o).clutStep b)
  else match wr with
    | none => (wd (clutAt a.clut a.clutAddr), s.clutStep b)
    | some v =>
      let s :=
        if s.running b then s.apgErr b 4 o
        else if 0xFFF < v.toNat then s.apgErr b 1 o
        else s.each (s.apgBenches b) fun x => State.modApg x fun y => { y with clut := tput y.clut a.clutAddr v }
      (0, s.clutStep b)

/-- An access of APG_PRE_DATA (R147, R149). Where several codes apply, ADDR comes before RUNNING and RUNNING before WIDTH
(log 28). -/
def State.preAccess (b : Nat) (wr : Option Word) (s : State) : Word × State :=
  let a := (s.bench b).apg
  let o := a.preOff
  if a.preBad then (0, (s.apgErr b 5 o).preStep b)
  else match wr with
    | none => (tget 0 a.presets a.preAddr, s.preStep b)
    | some v =>
      let s :=
        if s.running b then s.apgErr b 4 o
        else if 2 ^ (apgWidth.getD (a.preAddr % 16) 32) ≤ v.toNat then s.apgErr b 1 o
        else s.each (s.apgBenches b) fun x => State.modApg x fun y => { y with presets := tput y.presets a.preAddr v }
      (0, s.preStep b)

end Sys2Proof.Machine
end

