-- ==== Sys2Proof/Machine/Pspi.lean ====
section
/-! DEFINITION. The peripheral serial port: its queue, its frames, the safe list and its registers (R290 to R296, R298). -/

namespace Sys2Proof.Machine

/-- A refused PSPI write (R298). -/
def State.spimErr (code : Nat) (s : State) : State := s.modSpim fun x => { x with err := true, errCode := code }

/-- The queue takes no frame: it is full, or the safe list is being sent (R294, R296). -/
def Spim.full (x : Spim) : Bool := x.safeOn || decide (8 ≤ x.queue.length)

/-- A frame offered to the queue, in order of its tick and, within a tick, of its rank (R293). -/
def State.pspiQueue (frame src rank : Nat) (s : State) : State :=
  s.modSpim fun x => { x with
    queue := insertOn (fun r => r.tick * 128 + r.rank) { frame := frame % 64, src := src, tick := s.now, rank := rank } x.queue }

/-- A PSPI_SEND of the gang with a lead bench, at the instant of R96 (R109, R294). -/
def State.pspiPattern (lead frame : Nat) (s : State) : State :=
  if s.spim.full then s.modSpim fun x => { x with qdrop := x.qdrop.add 1, qfullSeen := true }
  else s.pspiQueue frame 1 lead

/-- A write of SPIM_SEND (R293, R294). -/
def State.pspiHost (mspi : Bool) (frame : Nat) (s : State) : State :=
  if s.spim.full then (s.modSpim fun x => { x with qfullSeen := true }).spimErr 1
  else s.pspiQueue frame 0 (if mspi then 65 else 64)

/-! ## Frames (R291, R292, R295, R296) -/

/-- Word w of frame f of the table. -/
def Spim.word (x : Spim) (f w : Nat) : Word := tget 0 x.table (64 * f + w)
/-- Units, select, and length in bits of unit u of frame f. -/
def Spim.units (x : Spim) (f : Nat) : Nat := fld (x.word f 0) 8 4 + 1
def Spim.sel (x : Spim) (f : Nat) : Nat := fld (x.word f 0) 0 2
def Spim.len (x : Spim) (f u : Nat) : Nat := fld (x.word f (2 + 2 * u)) 0 5 + 1
/-- Configuration and delay words of a select. -/
def Spim.cfg (x : Spim) (i : Nat) : Word := tget 31 x.selCfg i
def Spim.dly (x : Spim) (i : Nat) : Word := tget 0x020202 x.selDly i

/-- The units a frame sends, as its words stand: length in bits and data (R291). -/
def Spim.sending (x : Spim) (f : Nat) : List (Nat × Word) :=
  (List.range (x.units f)).map fun u => (x.len f u, wd ((x.word f (3 + 2 * u)).toNat % 2 ^ x.len f u))

/-- Ticks from the select's fall to its rise for units of given lengths (R292, without the 40 ns between frames). The SCK period
is that of R290 and R292, 2 × (DIV + 1) ticks; R404 gives twice as much (log 120). -/
def selectTicks (cfg dly : Word) (lens : List Nat) : Nat :=
  8 * fld dly 0 8 + lens.foldl (· + ·) 0 * 2 * (fld cfg 0 11 + 1) + (lens.length - 1) * 8 * fld dly 16 8 + 8 * fld dly 8 8

/-- Those of frame f as its words stand. -/
def Spim.frameTicks (x : Spim) (f : Nat) : Nat :=
  selectTicks (x.cfg (x.sel f)) (x.dly (x.sel f)) ((x.sending f).map (·.1))

/-- The edges that return SCK to its idle level, in ticks from the select's fall: half a period into each bit (R296;
log 99). base is where the first of the remaining units begins. -/
def idleEdges (cfg dly : Word) : (base : Nat) → List Nat → List Nat
  | _, [] => []
  | base, n :: r =>
    let h := fld cfg 0 11 + 1
    (List.range n).map (fun j => base + (2 * j + 1) * h) ++ idleEdges cfg dly (base + 2 * n * h + 8 * fld dly 16 8) r

/-- The frame in progress is cut on a tick: its select rises TRAIL after the next edge that returns SCK to idle (R296). -/
def Spim.cutEnd (x : Spim) (tick : Nat) : Nat :=
  match (idleEdges x.curCfg x.curDly (8 * fld x.curDly 0 8) (x.sent.map (·.1))).find? fun e => tick ≤ x.curStart + e with
  | some e => min x.curEnd (x.curStart + e + 8 * fld x.curDly 8 8)
  | none => x.curEnd

/-- Ticks of one read burst of n bytes of the boot flash: command, address and data on select 0, and 40 ns (R297). -/
def Spim.burstTicks (x : Spim) (n : Nat) : Nat := selectTicks (x.cfg 0) (x.dly 0) [8 * (n + 4)] + 32

/-- Ticks of the first k bursts of a read of n bytes, each of 256 bytes but for a shorter last one (R297). -/
def Spim.burstsTicks (x : Spim) (n k : Nat) : Nat :=
  let m := ceilDiv n 256
  if k < m then k * x.burstTicks 256
  else if n = 0 then 0
  else (m - 1) * x.burstTicks 256 + x.burstTicks (n - 256 * (m - 1))

/-- Bursts of a read of n bytes that begin before a tick, from a tick t0 on. -/
def Spim.burstsBefore (x : Spim) (t0 n tick : Nat) : Nat := min (ceilDiv n 256) (ceilDiv (tick - t0) (x.burstTicks 256))

/-- A fault reaction calls for the peripheral safe frames: they take the place of what is queued, queued on this tick in list
order (R293, R296). A read burst of the flash ends as a frame does (log 99). -/
def State.pspiSafe (s : State) : State :=
  let x := s.spim
  let fs := (List.range 8).filterMap fun i =>
    let w := tget 0 x.safe i
    if bit w 31 then some (fld w 0 6) else none
  let begun : Nat := match x.flashFrom with
    | some t => x.burstsBefore t x.flashLeft s.now
    | none => 0
  let busy : Bool := x.cur.isNone && match x.flashFrom with
    | some t => decide (t < s.now) && decide (s.now < t + x.burstsTicks x.flashLeft begun)
    | none => false
  let idle := if busy then max x.idleFrom (s.now + 2 * (fld (x.cfg 0) 0 11 + 1) + 8 * fld (x.dly 0) 8 8 + 32) else x.idleFrom
  s.modSpim fun x => { x with
    discardSeen := x.discardSeen || !x.queue.isEmpty, queue := fs.map fun f => { frame := f, src := 2, tick := s.now, rank := 0 },
    cutSeen := x.cutSeen || x.cur.isSome, curCut := x.cur.isSome, curEnd := if x.cur.isSome then x.cutEnd s.now else x.curEnd,
    idleFrom := idle, flashFrom := x.flashFrom.map fun t => if busy then idle else t,
    flashLeft := if busy then x.flashLeft - 256 * (begun - 1) else x.flashLeft, safeOn := !fs.isEmpty }

/-- The tick on which the select of a queued frame falls: 16 ticks after it was queued, or once the port is idle; a read burst
of the flash in progress as it is queued ends first, and the queue is then served before the next burst (R293, R297). -/
def Spim.fallTick (x : Spim) (q : PspiReq) : Nat :=
  let e := max x.idleFrom (q.tick + 16)
  match x.flashFrom with
  | some t => if q.tick ≤ t then e else max e (t + x.burstsTicks x.flashLeft (x.burstsBefore t x.flashLeft q.tick))
  | none => e

/-- The select of the next frame falls (R291, R293). -/
def State.pspiStart (s : State) : State :=
  match s.spim.cur, s.spim.queue with
  | none, q :: r =>
    let s := s.advanceTo (s.spim.fallTick q)
    let d := s.now - q.tick - 16
    s.modSpim fun z => { z with
      queue := r, cur := some q, curStart := s.now, curEnd := s.now + z.frameTicks q.frame, curCut := false,
      curCap := bit (z.word q.frame 0) 16, curCfg := z.cfg (z.sel q.frame), curDly := z.dly (z.sel q.frame),
      sent := z.sending q.frame, qdLast := d, qdMax := max z.qdMax d,
      flashLeft := match z.flashFrom with
        | some t => z.flashLeft - 256 * z.burstsBefore t z.flashLeft q.tick
        | none => z.flashLeft }
  | _, _ => s

/-- Words received, each right-aligned to the length of its unit, with a free value where none is given (R295). -/
def State.rxWords : List (Nat × Word) → List Word → State → List Word × State
  | [], _, s => ([], s)
  | (n, _) :: us, [], s =>
    let (v, s) := s.free
    let (r, s) := State.rxWords us [] s
    (wd (v % 2 ^ n) :: r, s)
  | (n, _) :: us, w :: ws, s =>
    let (r, s) := State.rxWords us ws s
    (wd (w.toNat % 2 ^ n) :: r, s)

/-- The frame in progress ends; a complete frame with CAPTURE = 1 keeps what it received (R295, R296). -/
def State.pspiEnd (rx : List Word) (s : State) : State :=
  match s.spim.cur with
  | none => s
  | some q =>
    let s := s.advanceTo s.spim.curEnd
    let s :=
      if s.spim.curCut || !s.spim.curCap then s
      else
        let (ws, s) := s.rxWords s.spim.sent rx
        s.modSpim fun x => { x with rxSrc := q.src, rxFrame := q.frame, rxTick := x.curStart, rx := tputList x.rx 0 ws }
    s.modSpim fun x => { x with cur := none, curCut := false, idleFrom := s.now + 32,
                                flashFrom := x.flashFrom.map fun _ => s.now + 32, safeOn := x.safeOn && !x.queue.isEmpty }

/-! ## Table window and select registers (R291, R298) -/

/-- A word of a frame that is not reserved. -/
def frmWord (w : Nat) : Bool := w = 0 || (decide (2 ≤ w) && decide (w < 34))

/-- Bits of a frame word that are stored: SAFE of word 0 is the image's. -/
def frmMask (w : Nat) : Word := if w = 0 then 0x10F03 else if w % 2 = 0 then 0x1F else 0xFFFFFFFF

/-- SPIM_FRM_ADDR after an access. -/
def State.frmStep (s : State) : State :=
  s.modSpim fun x =>
    if !x.frmInc || x.frmPast then x
    else if x.frmAddr = 0xFFF then { x with frmPast := true } else { x with frmAddr := x.frmAddr + 1 }

/-- A write of SPIM_FRM_DATA. -/
def State.frmWrite (v : Word) (s : State) : State :=
  let x := s.spim
  let w := x.frmAddr % 64
  let s :=
    if x.frmPast || !frmWord w then s.spimErr 4
    else if s.img.activeValid && !(decide (3 ≤ w) && w % 2 == 1) then s.spimErr 2
    else if decide (2 ≤ w) && w % 2 == 0 && decide (fld v 0 5 < 3) then s.spimErr 3
    else s.modSpim fun x => { x with
      table := tput x.table x.frmAddr ((v &&& frmMask w) ||| (tget 0 x.table x.frmAddr &&& ~~~(frmMask w))) }
  s.frmStep

/-- A read of SPIM_FRM_DATA. -/
def State.frmRead (s : State) : Word × State :=
  let x := s.spim
  if x.frmPast || !frmWord (x.frmAddr % 64) then (0, (s.spimErr 4).frmStep)
  else (tget 0 x.table x.frmAddr, s.frmStep)

/-- The bits of SPIM_SEL_CFG(i) that are not reserved. -/
def selCfgMask : Word := 0xC00007FF

/-- A write of SPIM_SEL_CFG(i). -/
def State.selCfgWrite (i : Nat) (v : Word) (s : State) : State :=
  if s.img.activeValid then s.spimErr 2
  else if fld v 0 11 < 7 ∨ 1999 < fld v 0 11 then s.spimErr 3
  else s.modSpim fun x => { x with selCfg := tput x.selCfg i (v &&& selCfgMask) }

/-- A write of SPIM_SEL_DLY(i). -/
def State.selDlyWrite (i : Nat) (v : Word) (s : State) : State :=
  if s.img.activeValid then s.spimErr 2
  else s.modSpim fun x => { x with selDly := tput x.selDly i (v &&& 0xFFFFFF) }

end Sys2Proof.Machine
end

