-- ==== Sys2Proof/Machine/Jobs.lean ====
section
/-! DEFINITION. Jobs in flight: their ends, their completions, and the order in which they start (R35, R268 to R274). -/

namespace Sys2Proof.Machine

/-- Statuses of R274. -/
def stOk : Nat := 0x00
def stType : Nat := 0x01
def stField : Nat := 0x02
def stTag : Nat := 0x03
def stPartition : Nat := 0x04
def stState : Nat := 0x05
def stCommit : Nat := 0x06
def stPrefill : Nat := 0x07
def stRepairBusy : Nat := 0x08
def stApply : Nat := 0x09
def stRefused : Nat := 0x0A
def stPartial : Nat := 0x0B
def stAborted : Nat := 0x0C
def stDma : Nat := 0x0D
def stPast : Nat := 0x0E

/-- Word i of a job's descriptor. -/
def Job.w (j : Job) (i : Nat) : Word := j.words.getD i 0
/-- TYPE, and a 64-bit value in words i and i + 1. -/
def Job.type (j : Job) : Nat := fld (j.w 0) 0 8
def Job.typeBad (j : Job) : Bool := j.type == 0 || decide (9 < j.type)
def Job.w64 (j : Job) (i : Nat) : Nat := (j.w i).toNat + (j.w (i + 1)).toNat * 2 ^ 32

/-- The job with a tag that has not ended: the first in submission order (R270). -/
def State.job (s : State) (p : Nat) (tag : BitVec 16) : Option Job :=
  (s.port p).jobs.find? fun j => j.tag = tag && j.phase != .ended

/-- The first element of a list that satisfies a test, changed. -/
def modFirst {α : Type} (c : α → Bool) (f : α → α) : List α → List α
  | [] => []
  | x :: r => if c x then f x :: r else x :: modFirst c f r

/-- The job with a tag changed. -/
def State.modJob (p : Nat) (tag : BitVec 16) (f : Job → Job) (s : State) : State :=
  s.modPort p fun x => { x with jobs := modFirst (fun j => j.tag = tag && j.phase != .ended) f x.jobs }

/-- A job ends: its completion is due (R270, R274). -/
def State.endJob (p : Nat) (tag : BitVec 16) (status detail result : Nat) (s : State) : State :=
  let n := (s.port p).ends
  (s.modJob p tag fun j =>
    { j with phase := .ended, status := status, detail := detail % 2 ^ 16, result := result % 2 ^ 64, endNo := n }).modPort
    p fun x => { x with ends := x.ends + 1 }

/-- The resources on which a job acts, as numbers (R35, R271): gangs, streams, HBM regions, channels, benches, staging of
gangs, engines, comparators. Of a job with the TAG of another nothing is carried out (R270). -/
def State.resources (s : State) (j : Job) : List Nat :=
  match if j.phase = .ended ∧ j.status = stTag then 0 else j.type with
  | 0x01 => bitsSet 64 (j.w64 2)
  | 0x02 => [100 + fld (j.w 1) 0 6]
  | 0x03 =>
    let a := j.w64 2
    let n := j.w64 6
    ((s.regions.zipIdx.filter fun r => r.1.base < a + n && a < r.1.base + r.1.size).map fun r => 2000 + r.2)
  | 0x04 => (bitsSet 64 (j.w64 2)).map fun i => 1000 + 64 * fld (j.w 1) 0 3 + i
  | 0x05 => (bitsSet 64 (j.w64 2)).map fun i => 300 + i
  | 0x06 => (bitsSet 64 (j.w64 2)).map fun i => 600 + i
  | 0x07 => [400 + fld (j.w 1) 0 6]
  | 0x08 => [500 + fld (j.w 1) 0 4]
  | _ => []

/-- Two jobs act on a resource in common. -/
def State.share (s : State) (i j : Job) : Bool := (s.resources i).any fun r => (s.resources j).contains r

/-- The jobs of a port submitted before the one with a tag. -/
def jobsBefore (tag : BitVec 16) (js : List Job) : List Job := js.takeWhile fun j => !(j.tag = tag && j.phase != .ended)

/-- A RUN START that waits for the guyline agreement, which a RUN STOP on its gangs ends (R127). -/
def guyWait (i j : Job) : Bool :=
  i.type == 1 && i.phase == .running && fld (i.w 1) 0 2 != 1 && bit (i.w 1) 5 && j.type == 1 && fld (j.w 1) 0 2 == 1

/-- R35 lets a queued job act: every earlier job of the port on one of its resources has ended (an APPLY has done with the
staging areas once it has taken their items, R258), no FENCE before it is left, and a FENCE has seen every earlier job completed. -/
def State.mayStart (s : State) (p : Nat) (j : Job) : Bool :=
  let before := jobsBefore j.tag (s.port p).jobs
  if j.type = 0x09 then before.isEmpty
  else before.all fun i =>
    if i.type = 0x09 then false
    else i.phase == .ended || (i.type == 0x06 && i.phase == .running) || guyWait i j || !s.share i j

/-- The jobs of undefined TYPE that R35 lets start end with TYPE (R271, R273). -/
def State.endTypes (p : Nat) (s : State) : State :=
  ((s.port p).jobs.filter fun j => j.phase == .queued && j.typeBad && s.mayStart p j).foldl
    (fun s j => s.endJob p j.tag stType 0 0) s

/-- An ended job of a list of jobs in flight whose completion may be written now: every earlier job on its resources has
completed (R35). -/
def State.mayComplete (s : State) (js : List Job) (j : Job) : Bool :=
  j.phase == .ended && (js.takeWhile fun i => i != j).all fun i => !s.share i j

/-- The next completions due from a list of jobs in flight, in the order in which the jobs ended, at most n of them and up to
the end with number last (R35, R270). -/
def State.dueJobs (s : State) (last : Nat) : Nat → List Job → List Job
  | 0, _ => []
  | n + 1, js =>
    match sortOn (·.endNo) (js.filter fun j => s.mayComplete js j && decide (j.endNo ≤ last)) with
    | [] => []
    | j :: _ => j :: s.dueJobs last n (js.filter fun i => i != j)

/-- The completion of an ended job written to the completion queue (R268, R274). -/
def State.writeCompletion (p : Nat) (j : Job) (s : State) : State :=
  let x := s.port p
  let tail := x.cqTail.toNat
  let nx := (tail + 1) % max 1 x.cqSize.toNat
  let ws := [flag x.cqPhase 31 ||| at' j.status 16 ||| wd j.tag.toNat, at' j.detail 16 ||| wd j.sqIndex, wordOf j.result 0,
    wordOf j.result 1]
  let s := (s.hostWrite p (x.cqBase.toNat + 16 * tail) (wordBytes ws)).modPort p fun x =>
    { x with cqTail := BitVec.ofNat 12 nx, cqPhase := if nx = 0 then !x.cqPhase else x.cqPhase }
  if bit (j.w 0) 8 then s.msix p 0 else s

/-- JOB_COMPLETE: the completions due of the jobs of a port, up to that of the one with a tag, are written; a port that stops
its queues writes none (R269, R270). -/
def State.jobComplete (p : Nat) (tag : BitVec 16) (s : State) : State :=
  let x := s.port p
  match x.jobs.find? fun j => j.tag = tag && j.phase == .ended with
  | none => s
  | some j =>
    let due := s.dueJobs j.endNo x.jobs.length x.jobs
    let s := if x.en && !x.quiescing then due.foldl (fun s i => s.writeCompletion p i) s else s
    (s.modPort p fun y => { y with jobs := y.jobs.filter fun i => !due.contains i }).endTypes p

end Sys2Proof.Machine
end

