-- ==== Sys2Proof/Machine/Repair.lean ====
section
/-! DEFINITION. The repair analysis engines: intake, search, states and solutions (R183 to R190). -/

namespace Sys2Proof.Machine

/-- A column as compared and listed: IO index, then PY′ (R190). -/
def Point.column (p : Point) : Nat × Nat := (p.io, p.col)

/-- The points and spares of a region while step 4 of R184 is applied. -/
structure Cover where
  points : List Point
  rows : List Nat
  cols : List (Nat × Nat)
  r : Int
  c : Int

/-- The lowest row that must be repaired: more than c points (R184 step 4). -/
def Cover.badRow (k : Cover) : Option Nat :=
  ((k.points.map (·.row)).eraseDups.filter fun x => k.c < ((k.points.filter fun p => p.row = x).length : Int)).min?

/-- A column that must be repaired: more than r points. -/
def Cover.badCol (k : Cover) : Option (Nat × Nat) :=
  (k.points.map (·.column)).eraseDups.find? fun x => k.r < ((k.points.filter fun p => p.column = x).length : Int)

/-- Step 4 of R184, repeated until no change occurs; each change releases a point, so the number of points bounds it. -/
def mustRepair : Nat → Cover → Cover
  | 0, k => k
  | n + 1, k =>
    match k.badRow with
    | some x => mustRepair n { k with points := k.points.filter fun p => p.row ≠ x, rows := x :: k.rows, r := k.r - 1 }
    | none =>
      match k.badCol with
      | some x =>
        mustRepair n { k with points := k.points.filter fun p => p.column ≠ x, cols := x :: k.cols, c := k.c - 1 }
      | none => k

/-- What the visits of one region have found (R186): nodes, the best assignment, and whether the budget ended them. -/
structure Found where
  nodes : Nat := 0
  best : Option (List Nat × List (Nat × Nat)) := none
  cut : Bool := false

/-- The point with the lowest row, then the lowest column. -/
def lowest (ps : List Point) : Option Point :=
  ps.foldl (fun m p => match m with
    | none => some p
    | some q =>
      if p.row < q.row ∨ (p.row = q.row ∧ (p.io < q.io ∨ (p.io = q.io ∧ p.col < q.col))) then some p else some q) none

/-- visit of R186, with the depth of its calls as fuel: every call uses up a spare. -/
def visit : Nat → Nat → Cover → Found → Found
  | 0, _, _, f => f
  | n + 1, nb, k0, f =>
    if f.cut then f
    else if f.nodes = nb then { f with cut := true }
    else
      let f := { f with nodes := f.nodes + 1 }
      let k := mustRepair k0.points.length k0
      let used := k.rows.length + k.cols.length
      if k.r < 0 ∨ k.c < 0 then f
      else if (match f.best with
        | some b => decide (b.1.length + b.2.length ≤ used)
        | none => false) then f
      else match lowest k.points with
        | none => { f with best := some (k.rows, k.cols) }
        | some p =>
          if 2 * k.r * k.c < (k.points.length : Int) then f
          else
            let f := visit n nb { k with points := k.points.filter fun q => q.row ≠ p.row, rows := p.row :: k.rows,
                                         r := k.r - 1 } f
            visit n nb { k with points := k.points.filter fun q => q.column ≠ p.column, cols := p.column :: k.cols,
                                c := k.c - 1 } f

/-- The points, spares and must-repair sets of a region at intake. -/
def RegionRep.cover (x : RegionRep) (sr sc : Nat) : Cover :=
  { points := x.points, rows := x.mustRows, cols := x.mustCols, r := (sr : Int) - x.mustRows.length,
    c := (sc : Int) - x.mustCols.length }

/-! ## Intake (R184, R185) -/

/-- Stored points across all regions. -/
def Rae.occ (x : Rae) : Nat := x.regions.foldl (fun n r => n + r.2.points.length) 0

/-- A region ends at intake: its stored points are released, and its first outcome stays. -/
def RegionRep.finish (x : RegionRep) (outcome cause : Nat) : RegionRep :=
  if x.ended.isSome then x else { x with touched := true, ended := some (outcome, cause), points := [] }

/-- One fail point taken in (R184). -/
def Rae.intake (x : Rae) (region : Nat) (p : Point) : Rae :=
  let y := tget {} x.regions region
  let put (z : RegionRep) : Rae := { x with regions := tput x.regions region z }
  if y.ended.isSome then x
  else if y.mustRows.contains p.row || y.mustCols.contains p.column then put { y with touched := true }
  else if y.points.contains p then x
  else if 4096 ≤ x.occ then put (y.finish 3 5)
  else
    let k0 := { y with touched := true, points := y.points ++ [p] }.cover x.cfg.sr x.cfg.sc
    let k := mustRepair k0.points.length k0
    let z := { y with touched := true, points := k.points, mustRows := k.rows, mustCols := k.cols }
    let z := if k.r < 0 ∨ k.c < 0 then z.finish 2 2
      else if 2 * k.r * k.c < (k.points.length : Int) then z.finish 2 1 else z
    let x := { put z with maxOcc := max x.maxOcc (x.occ + 1) }
    x

/-- The intake queue gives up n points. -/
def Rae.drain : Nat → Rae → Rae
  | 0, x => x
  | n + 1, x =>
    match x.inq with
    | [] => x
    | (g, p) :: r => Rae.drain n ({ x with inq := r }.intake g p)

/-- An engine as the points taken in by a tick leave it, 32 on every tick (R185). -/
def Rae.at (x : Rae) (t : Nat) : Rae := { x.drain (min x.inq.length (32 * (t - x.inqTick))) with inqTick := t }

/-- The intake queue takes in its points up to now. -/
def State.raeDrain (e : Nat) (s : State) : State := s.modRae e fun x => x.at s.now

/-- A fail point offered to the intake queue of an engine in INTAKE (R185). -/
def State.raeOffer (e region : Nat) (p : Point) (s : State) : State :=
  (s.raeDrain e).modRae e fun x =>
    if 4096 ≤ x.inq.length then
      { x with drop := x.drop.add 1, dropped := true,
               regions := tmod {} x.regions region fun y => y.finish 3 6 }
    else { x with inq := x.inq ++ [(region, p)] }

/-- Region number, row and column of a fail (R183). -/
def State.raePoint (s : State) (e : Nat) (r : ApgRegs) (sn : Snap) (io : Nat) : Nat × Point :=
  let c := (s.rae e).cfg
  let py := sn.py.toNat % 2 ^ r.yw / 2 ^ (r.yw - c.yr) % 2 ^ c.yr
  let px := sn.px.toNat % 2 ^ r.xw / 2 ^ (r.xw - c.xr) % 2 ^ c.xr
  let pz := sn.pz.toNat % 2 ^ c.zr
  (py + px * 2 ^ c.yr + pz * 2 ^ (c.yr + c.xr),
   { row := sn.px.toNat, col := sn.py.toNat, io := if c.colIo then io else 0 })

/-- The engines that serve a site. -/
def State.enginesOf (s : State) (site : Nat) : List Nat :=
  (s.raes.filter fun x => x.2.cfg.assigned && x.2.cfg.site == site).map (·.1)

/-! ## States (R187, R188) -/

/-- The engine searches, and not since an ANALYSE of this tick, to which a start is preferred. -/
def State.searching (s : State) (e : Nat) : Bool :=
  (s.rae e).state == .search && (s.rae e).analysed != some s.now

/-- A start of the gang reaches the engine: SAT of RAE_DROP clears (R128), outcomes and solutions are discarded, intake content is kept. An ANALYSE of the
same tick is refused. -/
def State.raeStart (e : Nat) (s : State) : State :=
  let busy := s.searching e
  s.modRae e fun x =>
    let x := { x with drop := { x.drop with sat := false } }
    if busy || x.state == .intake then x
    else { x with
      state := .intake, solValid := false, result := 0, inqTick := s.now, refused := x.refused || x.state == .search,
      regions := x.regions.map fun r => (r.1, { r.2 with
        outcome := 0, cause := 0, optimal := false, nodes := 0, rows := [], cols := [] }) }

/-- Intake closes when the run has ended and the last result has returned (R188). -/
def State.raeClose (e : Nat) (s : State) : State :=
  s.modRae e fun x =>
    if x.state ≠ .intake then x
    else { x.drain x.inq.length with state := if x.cfg.auto then .search else .paused, trigTick := s.now }

/-- Writes of ANALYSE and CLEAR (R188). -/
def State.raeCtrl (e : Nat) (v : Word) (s : State) : State :=
  s.modRae e fun x =>
    match bit v 1, bit v 0, x.state with
    | true, true, _ => { x with refused := true }
    | true, false, .search | true, false, .intake => { x with refused := true }
    | true, false, _ =>
      { x with state := .idle, regions := [], inq := [], solValid := false, result := 0 }
    | false, true, .paused => { x with state := .search, trigTick := s.now, analysed := some s.now }
    | false, true, _ => { x with refused := true }
    | false, false, _ => x

/-- The search of one region (R186). A region without a solution lists no row and no column (log 118). -/
def RegionRep.search (x : RegionRep) (sr sc nb : Nat) : RegionRep :=
  match x.ended with
  | some (o, c) => { x with outcome := o, cause := c, optimal := false, nodes := 0, rows := [], cols := [] }
  | none =>
    if !x.touched then { x with outcome := 0, cause := 0, optimal := false, nodes := 0, rows := [], cols := [] }
    else
      let f := visit (sr + sc + 3) nb (x.cover sr sc) {}
      match f.best with
      | some b => { x with outcome := 1, cause := 0, optimal := !f.cut, nodes := f.nodes,
                           rows := sortOn id b.1, cols := sortOn (fun q => q.1 * 2 ^ 20 + q.2) b.2 }
      | none => { x with outcome := if f.cut then 3 else 2, cause := if f.cut then 4 else 3, optimal := false,
                         nodes := f.nodes, rows := [], cols := [] }

/-- RAE_RESULT (R189, R192). -/
def resultWord (rs : List RegionRep) : Word :=
  let n (o : Nat) : Nat := (rs.filter fun r => r.outcome = o).length
  let w := if 0 < n 2 then 2 else if 0 < n 3 then 3 else if 0 < n 1 then 1 else 0
  at' w 30 ||| at' (n 2) 18 ||| at' (n 3) 9 ||| wd (n 1)

/-- The last region has been searched: DONE (R186 to R188). A search of n nodes takes at least n × 5 ns. -/
def State.searchDone (e : Nat) (s : State) : State :=
  let x := s.rae e
  if x.state ≠ .search then s
  else
    let rs := x.regions.map fun r => (r.1, r.2.search x.cfg.sr x.cfg.sc x.cfg.nb)
    let nodes := rs.foldl (fun n r => n + r.2.nodes) 0
    let s := s.advanceTo (x.trigTick + 4 * nodes)
    let s := s.modRae e fun x => { x with
      state := .done, regions := rs, nodes := nodes, result := resultWord (rs.map (·.2)), solValid := true,
      tsearch := ceilDiv ((s.now - x.trigTick) * 5) 4000 }
    s.noticeTo (s.raeOwner e) 0x06 e s.now 0

/-- Word w of the solution memory (R190). -/
def Rae.solution (x : Rae) (w : Nat) : Word :=
  if !x.solValid || decide (33792 ≤ w) then 0
  else
    let r := tget {} x.regions (w / 132)
    match w % 132 with
    | 0 => at' r.outcome 30 ||| flag r.optimal 29 ||| at' r.cause 26 ||| at' r.rows.length 16 ||| wd r.cols.length
    | 1 => wd r.nodes
    | k =>
      if k < 66 then wd (r.rows.getD (k - 2) 0)
      else if k < 130 then (match r.cols[k - 66]? with
        | some q => at' q.1 20 ||| wd q.2
        | none => 0)
      else 0

/-- A read of RAE_SOL_DATA (R192). -/
def State.solRead (e : Nat) (s : State) : Word × State :=
  let x := s.rae e
  (x.solution x.solAddr,
   s.modRae e fun x => if x.solInc && decide (x.solAddr < 33792) then { x with solAddr := x.solAddr + 1 } else x)

end Sys2Proof.Machine
end

