-- ==== Sys2Proof/Machine/Flags.lean ====
section
/-! DEFINITION. Flag computations of the sequencer: fail flags and the conditions of JUMP_IF (R22, R112 to R114), and the compare results of a lane (R45, R46, R174). -/

namespace Sys2Proof.Machine

/-! ## Fail flags (R114) -/

/-- The beat at which a clear takes the fail flags of a gang. -/
def State.clearFlags (g n : Nat) (s : State) : State := s.modGang g fun x => { x with clrBeat := n, firstFail := [] }

/-- A failing compare of beat n on a site's lanes. -/
def State.siteFail (site n : Nat) (s : State) : State :=
  s.modGang (s.site site).cfg.gang fun x =>
    if n < x.clrBeat then x
    else match tfind x.firstFail site with
      | some m => if m ≤ n then x else { x with firstFail := tput x.firstFail site n }
      | none => { x with firstFail := tput x.firstFail site n }

/-- The site fail flag over every result returned since the last clear (BENCH_SEQ_FLAGS). -/
def State.sfail (s : State) (site : Nat) : Bool := (tfind (s.gang (s.site site).cfg.gang).firstFail site).isSome
/-- The site fail flag as a JUMP_IF at beat n sees it: over the compares of beats up to n − 48 (R22). -/
def State.sfailAt (s : State) (site n : Nat) : Bool :=
  match tfind (s.gang (s.site site).cfg.gang).firstFail site with
  | some m => m + 48 ≤ n
  | none => false

/-- Gang fail flag, and AFAIL of R112. -/
def State.gfail (s : State) (g : Nat) : Bool := (s.sitesOfGang g).any s.sfail
def State.afail (s : State) (g : Nat) : Bool := !(s.sitesOfGang g).isEmpty && (s.sitesOfGang g).all s.sfail

/-- Condition code uses the fail flags (R112). -/
def condFail (c : Nat) : Bool := decide (c < 4)

/-- HFLAG as a condition evaluated on tick t sees it: a write on that tick is seen on the next evaluation (R113). -/
def Seq.hflagAt (q : Seq) (t : Nat) : Bool := if q.hflagTick = some t then q.hflagOld else q.hflag

/-- A condition of JUMP_IF at beat n of gang g, on the lead bench's state (R112, R113, R117). -/
def State.condition (s : State) (g n c : Nat) : Bool :=
  let q := (s.bench (s.lead g)).seq
  let a := (s.bench (s.lead g)).apg
  let sites := s.sitesOfGang g
  let af := !sites.isEmpty && sites.all fun i => s.sfailAt i n
  let last (k : Nat) : Bool := q.lact.getLsbD k && tget 0 q.lcnt k == 1
  match c with
  | 0 => sites.any fun i => s.sfailAt i n
  | 1 => !(sites.any fun i => s.sfailAt i n)
  | 2 => af
  | 3 => !af
  | 4 => last 0
  | 5 => last 1
  | 6 => q.trig
  | 7 => !q.trig
  | 8 => a.ax
  | 9 => a.ay
  | 10 => a.ax && a.ay
  | 11 => !(a.ax && a.ay)
  | 12 => q.hflagAt s.now
  | 13 => !q.hflagAt s.now
  | 14 => !last 0
  | _ => !last 1

/-! ## Compares (R45, R101, R174) -/

/-- What one lane of one vector shows. -/
structure LaneRes where
  fail : Bool := false
  masked : Bool := false
  nocmp : Bool := false
  lvlH : Bool := false
  lvlL : Bool := false

/-- The condition of a compare holds at every voltage seen, each times 2^149 (R45). -/
def allHigh (f : FlightLane) (vs : List Int) : Bool := vs.all fun v => f32Num f.vch < v
def allLow (f : FlightLane) (vs : List Int) : Bool := vs.all fun v => v < f32Num f.vcl
def allMid (f : FlightLane) (vs : List Int) : Bool := vs.all fun v => f32Num f.vcl ≤ v && v ≤ f32Num f.vch

/-- The actions that compare or sample. -/
def Act.compares : Act → Bool
  | .cmp _ | .cmpZ | .sample => true
  | _ => false

/-- The action is that of a compare-class code (R74): a 0xD that its stream masks is one, 0x9 is not. -/
def Act.compareClass (a : Act) : Bool := a.compares || a == .streamMask

/-- The C_OPEN instant of a lane lies in the guard window of its bench (R261). -/
def Flight.guarded (f : Flight) (v : Vec) (t : LaneT) : Bool :=
  f.beat.guard && decide (v.start + t.cOpen < f.tl + f.gw * 4000)

/-- The channel was in safe state when the vector that starts at instant t started its cycle (R56). -/
def FlightLane.dropped (f : FlightLane) (t : Nat) : Bool := f.drop ^^ ((f.flips.filter (· ≤ t)).length % 2 == 1)

/-- The result of lane l of a vector, from the voltages its comparators saw. odd tells the second lane of a differential
pair, whose compares act as mask (R46). A compare whose voltages are not given has a free result. -/
def State.laneResult (f : Flight) (v : Vec) (l : Nat) (odd : Bool) (volts : Option (List Int)) (s : State) :
    LaneRes × State :=
  let x := v.lanes.getD l {}
  let fl := f.lanes.getD l {}
  match x.act with
  | .off | .drive _ => ({ nocmp := true }, s)
  | .mask | .streamMask => ({ masked := true }, s)
  | a =>
    if odd || x.iomasked || f.guarded v x.t then ({ masked := true }, s)
    else if fl.dropped v.start then ({}, s)
    else match volts with
      | none =>
        let (n, s) := s.free
        (if a = .sample then { lvlH := n.testBit 0, lvlL := n.testBit 1 } else { fail := n.testBit 0 }, s)
      | some vs =>
        (match a with
          | .cmp true => { fail := !allHigh fl vs }
          | .cmp false => { fail := !allLow fl vs }
          | .cmpZ => { fail := !allMid fl vs }
          | _ => { lvlH := allHigh fl vs, lvlL := allLow fl vs }, s)

/-- The voltages that the comparators of lane l see in a vector, each times 2^149: those at its pin, or at the first lane of a
differential pair the differences of the two pins' (R46); none where they are not given. -/
def seenVolts (f : Flight) (v : Vec) (b : Nat) (samples : List PinSample) (l : Nat) : Option (List Int) :=
  let pin (l : Nat) : Option (List Int) :=
    (samples.find? fun p => p.bench.val = b && p.lane.val = l && p.slot.val = v.slot).map fun p => p.volts.map f32Num
  if l % 2 == 0 && (f.lanes.getD l {}).diff then
    match pin l, pin (l + 1) with
    | some p, some q => if p.length = q.length then some (p.zipWith (· - ·) q) else none
    | _, _ => none
  else pin l

/-- The results of lanes from l on. -/
def State.laneResults (f : Flight) (v : Vec) (b : Nat) (samples : List PinSample) : List Nat → State →
    List LaneRes × State
  | [], s => ([], s)
  | l :: r, s =>
    let odd := l % 2 == 1 && (f.lanes.getD (l - 1) {}).diff
    let (x, s) := s.laneResult f v l odd (seenVolts f v b samples l)
    let (xs, s) := State.laneResults f v b samples r s
    (x :: xs, s)

/-- A mask of the lanes of a list whose result shows something. -/
def maskOf (lanes : List Nat) (rs : List LaneRes) (p : LaneRes → Bool) : BitVec 8 :=
  lanes.foldl (fun m l => if p (rs.getD l {}) then m ||| BitVec.ofNat 8 (2 ^ l) else m) 0

end Sys2Proof.Machine
end

