-- ==== Sys2Proof/Machine/Fail.lean ====
section
/-! DEFINITION. The return of results, first-fail capture, the fail log and the fail bitmaps (R172 to R182). -/

namespace Sys2Proof.Machine

/-- Fail pipeline latency of a gang in ticks (R172). -/
def lfp (n : Nat) : Nat := 22 + 2 * (if n ≤ 1 then 0 else Nat.log2 (n - 1) + 1)

/-- The home bench of a site (R175). -/
def Site.home (x : Site) : Nat := (x.cfg.benches.min?).getD 0

/-- The sites on a bench as halves: the site holding lanes 0 to 3, then the one holding lanes 4 to 7 when it is another
(R175). -/
def State.halves (s : State) (b : Nat) : List (Nat × Nat) :=
  match s.siteOf b 0, s.siteOf b 4 with
  | some i, some j => if i = j then [(0, i)] else [(0, i), (1, j)]
  | some i, none => [(0, i)]
  | none, some j => [(1, j)]
  | none, none => []

/-! ## The site's write queue (R180) -/

/-- A site counter gains n events in the site's home bench. -/
def State.siteCnt (i : Nat) (get : Site → Cnt48) (set : Cnt48 → Site → Site) (n : Nat) (s : State) : State :=
  let x := s.site i
  let c := (get x).add n
  (s.modSite i (set c)).gen1 x.home ((get x).rose c)

def State.logDropped (i : Nat) (s : State) : State := s.siteCnt i (·.logDrop) (fun c x => { x with logDrop := c }) 1

/-- A closed log entry offered to the site's write queue (R176, R180). -/
def State.offerLog (i : Nat) (e : LogEntry) (s : State) : State :=
  let x := s.site i
  if x.logFull then s.logDropped i
  else if 512 ≤ x.queue.length then (s.modSite i fun x => { x with qovf := true }).logDropped i
  else s.modSite i fun x => { x with queue := x.queue ++ [.log e] }

/-- A bitmap update offered to the site's write queue (R181). -/
def State.offerBitmap (i : Nat) (bits : List Nat) (s : State) : State :=
  if bits = [] then s
  else if 512 ≤ (s.site i).queue.length then
    (s.modSite i fun x => { x with bmIncomplete := true }).siteCnt i (·.bmDrop) (fun c x => { x with bmDrop := c }) 1
  else s.modSite i fun x => { x with queue := x.queue ++ [.bitmap bits] }

/-- The words of a log entry (R177). -/
def LogEntry.words (e : LogEntry) : List Word :=
  [wordOf e.beat 0, wordOf e.beat 1, at' e.snap.pz.toNat 24 ||| e.snap.px,
   at' e.slot 30 ||| at' e.bench 24 ||| e.snap.py, e.snap.td,
   at' e.fail.toNat 24 ||| at' e.masked.toNat 16 ||| at' e.nocmp.toNat 8 ||| e.snap.c,
   at' e.lvlH.toNat 24 ||| at' e.lvlL.toNat 16 ||| wd e.count,
   at' (if e.sample then 1 else 0) 30 ||| wd (min 0xFFFFFF e.span)]

/-- LOG_ENTRY_WRITTEN: the oldest write of the site's queue is in HBM (R176, R180, R181). -/
def State.serveWrite (i : Nat) (s : State) : State :=
  let x := s.site i
  match x.queue with
  | [] => s
  | .bitmap bits :: r =>
    let s := s.modSite i fun x => { x with queue := r }
    bits.foldl (fun s k =>
      let a := x.fail.bmBase + k / 8
      s.hbmWrite a [s.hbmAt a ||| BitVec.ofNat 8 (2 ^ (k % 8))]) s
  | .log e :: r =>
    let s := s.modSite i fun x => { x with queue := r }
    if x.fail.logSize ≤ x.logWr then (s.modSite i fun x => { x with logFull := true }).logDropped i
    else
      (s.hbmWords (x.fail.logBase + 32 * x.logWr) e.words).modSite i fun x =>
        { x with logWr := x.logWr + 1, logFull := decide (x.fail.logSize ≤ x.logWr + 1) }

/-- A log entry is to be written with the others of the present tick (R178). -/
def State.closeLog (site : Nat) (e : LogEntry) (s : State) : State :=
  s.modSite site fun x => { x with closing := x.closing ++ [e] }

/-- The bench's open log entry of a half closes: it is written (R179). -/
def State.closeEntry (b h site : Nat) (s : State) : State :=
  match tfind (s.bench b).openEntry h with
  | none => s
  | some e => (s.modBench b fun x => { x with openEntry := tdel x.openEntry h }).closeLog site e

/-- Position of an entry in the order of beat, slot and bench (R178). -/
def LogEntry.rank (e : LogEntry) : Nat := (e.beat * 4 + e.slot) * 64 + e.bench

/-- The entries of a site that are to be written on the present tick go to its write queue, in the order of R178. -/
def State.flushLog (site : Nat) (s : State) : State :=
  (sortOn LogEntry.rank (s.site site).closing).foldl (fun s e => s.offerLog site e)
    (s.modSite site fun x => { x with closing := [] })

/-! ## One vector's result -/

/-- The per-pin counters of the lanes of a list (R173). -/
def State.countFails (b : Nat) (lanes : List Nat) (s : State) : State :=
  s.each lanes fun l s =>
    let c := (s.chan b l).failCnt
    let d := c.add 1
    (s.modChan b l fun x => { x with failCnt := d }).gen1 b (c.rose d)

/-- The log of a site takes a vector of bench b (R178, R179). cmp tells whether it has a compare-class code on the site's
lanes (R74). -/
def State.logVector (b h site : Nat) (e : LogEntry) (hasSample cmp : Bool) (s : State) : State :=
  let f := (s.site site).fail
  let close := State.closeEntry b h site
  if e.fail ≠ 0 then
    match f.merge, tfind (s.bench b).openEntry h with
    | true, some o =>
      if o.fresh && decide (o.count < 65535) && o.snap.px == e.snap.px && o.snap.py == e.snap.py &&
          o.snap.pz == e.snap.pz then
        let o := { o with count := o.count + 1, fail := o.fail ||| e.fail, span := e.beat - o.beat }
        s.modBench b fun x => { x with openEntry := tput x.openEntry h o }
      else (close s).modBench b fun x => { x with openEntry := tput x.openEntry h e }
    | true, none => s.modBench b fun x => { x with openEntry := tput x.openEntry h e }
    | false, _ => s.closeLog site e
  else
    let stale (p : Nat × LogEntry) : Nat × LogEntry := if p.1 = h then (p.1, { p.2 with fresh := false }) else p
    let s := if cmp then s.modBench b fun x => { x with openEntry := x.openEntry.map stale } else s
    if f.sample && hasSample then (close s).closeLog site { e with sample := true } else s

/-- The bitmap bits of failing DATA lanes, given by their bit indexes, at the coordinates of a vector: none outside the
window (R181). -/
def failBits (f : FailCfg) (sn : Snap) (ios : List Nat) : List Nat :=
  let px := sn.px.toNat
  let py := sn.py.toNat
  let pz := sn.pz.toNat
  let inWin := decide (f.xLo ≤ px) && decide (px ≤ f.xHi) && decide (f.yLo ≤ py) && decide (py ≤ f.yHi) &&
    decide (f.zLo ≤ pz) && decide (pz ≤ f.zHi)
  let at0 := (((pz - f.zLo) * (f.yHi - f.yLo + 1) + (py - f.yLo)) * (f.xHi - f.xLo + 1) + (px - f.xLo)) * 2 ^ f.iok
  (ios.filter fun i => inWin && decide (i < 2 ^ f.iok)).map (at0 + ·)

/-- The bitmap of a site takes the failing DATA lanes of a vector, given by their bit indexes (R181). -/
def State.bitmapVector (site : Nat) (sn : Snap) (ios : List Nat) (s : State) : State :=
  let f := (s.site site).fail
  if !f.hasBm || ios.isEmpty then s
  else
    let bs := failBits f sn ios
    (s.siteCnt site (·.bmOutwin) (fun c x => { x with bmOutwin := c }) (ios.length - bs.length)).offerBitmap site bs

/-- The engines of a site take the fails of a vector (R184): DATA lanes as points, any other sets NONIO. -/
def State.repairVector (b site : Nat) (sn : Snap) (ios : List Nat) (other : Bool) (s : State) : State :=
  s.each (s.enginesOf site) fun e s =>
    if (s.rae e).state ≠ .intake then s
    else
      let s := if other then s.modRae e fun x => { x with nonio := true } else s
      ios.foldl (fun s io =>
        let q := s.raePoint e (s.bench b).apg.regs sn io
        s.raeOffer e q.1 q.2) s

/-- One site's part of a vector's result (R175, R178, R181, R184). -/
def State.siteVector (b h site : Nat) (f : Flight) (v : Vec) (rs : List LaneRes) (s : State) : State :=
  let lanes := laneList (s.site site).cfg.lanes
  let m := maskOf lanes rs
  let fail := m (·.fail)
  let s := if fail ≠ 0 then s.siteFail site f.beat.num else s
  if !f.beat.captEn then s
  else
    let rec0 : FirstFail :=
      { valid := true, beat := f.beat.num, slot := v.slot, fail := fail, masked := m (·.masked), nocmp := m (·.nocmp),
        lvlH := m (·.lvlH), lvlL := m (·.lvlL), snap := v.snap }
    let s := if fail ≠ 0 ∧ !(tget {} (s.bench b).ff h).valid then
        s.modBench b fun x => { x with ff := tput x.ff h rec0 } else s
    let e : LogEntry :=
      { beat := f.beat.num, slot := v.slot, bench := b, fail := fail, masked := rec0.masked, nocmp := rec0.nocmp,
        lvlH := rec0.lvlH, lvlL := rec0.lvlL, snap := v.snap }
    let hasSample := lanes.any fun l => (v.lanes.getD l {}).act == .sample && !(rs.getD l {}).masked &&
      !(f.lanes.getD l {}).dropped v.start
    let s := s.logVector b h site e hasSample (lanes.any fun l => (v.lanes.getD l {}).act.compareClass)
    let fails := lanes.filter fun l => (rs.getD l {}).fail
    let data := fails.filter fun l => fld (v.lanes.getD l {}).apgMap 8 4 = 7
    let ios := data.map fun l => fld (v.lanes.getD l {}).apgMap 0 5
    let s := s.bitmapVector site v.snap ios
    s.repairVector b site v.snap ios (decide (data.length < fails.length))

/-- The result of vector slot j of the oldest beat in flight of bench b. -/
def State.vectorReturn (samples : List PinSample) (j b : Nat) (s : State) : State :=
  match (s.bench b).flight.head? with
  | none => s
  | some f =>
    match f.beat.vecs[j]? with
    | none => s
    | some v =>
      let (rs, s) := s.laneResults f v b samples (List.range 8)
      let s := s.countFails b ((List.range 8).filter fun l => (rs.getD l {}).fail)
      s.each (s.halves b |>.map (·.1)) fun h s =>
        match (s.halves b).find? fun p => p.1 = h with
        | some p => s.siteVector b h p.2 f v rs
        | none => s

/-- The instant in qps at which the results of a beat return (R172). -/
def Flight.returnTick (f : Flight) (n : Nat) : Nat :=
  match f.beat.vecs.getLast? with
  | none => 0
  | some v => ceilDiv (v.start + max v.period 5000 + (lfp n - 1) * 5000) 5000

/-! ## The run's ends -/

/-- The run has ended and its last result has returned: open log entries close (R179), and the engines of the gang's sites
close their intake (R188). -/
def State.runEnd (g : Nat) (s : State) : State :=
  let s := s.each (s.gangBenches g) fun b s =>
    (s.halves b).foldl (fun s p => s.closeEntry b p.1 p.2) s
  let s := s.each (s.sitesOfGang g) State.flushLog
  s.each (s.sitesOfGang g) fun i s => s.each (s.enginesOf i) State.raeClose

/-- RESULT_RETURN: the results of the gang's oldest beat in flight return, vector by vector and bench by bench (R172,
R178). The bitmap updates of the beat enter a site's write queue before its log entries (log 115). -/
def State.resultReturn (g : Nat) (samples : List PinSample) (s : State) : State :=
  let bs := s.gangBenches g
  match (s.bench (s.lead g)).flight.head? with
  | none => s
  | some f =>
    let s := s.advanceTo (f.returnTick bs.length)
    let s := s.each (List.range f.beat.vecs.length) fun j s => s.each bs fun b => State.vectorReturn samples j b
    let s := s.each (s.sitesOfGang g) State.flushLog
    let s := s.each bs fun b => State.modBench b fun x => { x with flight := x.flight.tail }
    s.modGang g fun x => { x with returned := f.beat.num + 1 }

/-- The logs, counters and captures of a gang's sites at a start (R128, R173, R175, R176). What a site's write queue still
holds stays in it: bitmaps accumulate over runs (R182), and no rule discards an entry (log 89). -/
def State.failStart (g : Nat) (s : State) : State :=
  let s := s.each (s.gangBenches g) fun b s =>
    (s.modBench b fun x => { x with ff := [], openEntry := [], satPosted := false }).each (List.range 8) fun l =>
      State.modChan b l fun c => { c with failCnt := {} }
  s.each (s.sitesOfGang g) fun i =>
    State.modSite i fun x => { x with
      logWr := 0, logFull := false, qovf := false, logDrop := { x.logDrop with sat := false },
      bmDrop := { x.bmDrop with sat := false }, bmOutwin := { x.bmOutwin with sat := false } }

/-- FF_REARM (R175, R191): when one site holds the bench, bit 1 acts as bit 0. -/
def State.ffRearmWrite (b : Nat) (v : Word) (s : State) : State :=
  let whole := s.siteOf b 0 == s.siteOf b 4
  let clear (h : Nat) : State → State := State.modBench b fun x => { x with ff := tdel x.ff h }
  let s := if bit v 0 then clear 0 s else s
  if bit v 1 then clear (if whole then 0 else 1) s else s

end Sys2Proof.Machine
end

