-- ==== Sys2Proof/Machine/Cuts.lean ====
section
/-! DEFINITION. Armed APPLYs: how they land on a beat and how they end (R26, R27, R124, R257 to R260), and the end of a gang's run (R110, R127, R179, R188, R275). -/

namespace Sys2Proof.Machine

/-! ## Items (R256, R257) -/

/-- Fields of an item's target word. -/
def itBench (t : Word) : Nat := fld t 26 6
def itSpace (t : Word) : Nat := fld t 22 4
def itOff (t : Word) : Nat := fld t 0 16

/-- An item that is not of the parameter memory acts on its bench; an APG register acts on every bench of its gang, whose benches
hold one value (R146). A PERIOD word acts on the bench in whose area it stands: it was pushed into that of every bench of the
gang (R257), and validation refuses what would leave their mapped periods unequal (R84). -/
def State.landItem (i : Word × Word) (s : State) : State :=
  let b := itBench i.1
  let o := itOff i.1
  match itSpace i.1 with
  | 0 => s.modTmg b fun t => t.withSlots (decide (o = 0x804)) i.2
  | 1 => s.libStore b o i.2
  | 3 => s.each (s.apgBenches b) fun c => State.modApg c fun a => { a with regs := a.regs.set o i.2 }
  | _ => s

/-- An item of one bench that acts on every bench of its gang: an APG register (R146). -/
def itShared (t : Word) : Bool := itSpace t == 3

/-- Bench b with the items of a list that act on it, mates being the benches of its gang. -/
def Bench.withItems (x : Bench) (b : Nat) (mates : List Nat) (its : List (Word × Word)) : Bench :=
  (its.filter fun i => itBench i.1 == b || (itShared i.1 && mates.contains (itBench i.1))).foldl (fun x i =>
    let o := itOff i.1
    let put (p : LaneP) : LaneP := p.set (o % 0x100) (i.2 &&& laneMask (o / 0x100) (o % 0x100))
    match itSpace i.1 with
    | 0 => { x with tmg := x.tmg.withSlots (decide (o = 0x804)) i.2 }
    | 1 => { x with tmg := { x.tmg with lib := tput x.tmg.lib o (i.2 &&& libMask o) } }
    | 2 => { x with lanes := tmod {} x.lanes (o / 0x100) put }
    | 3 => { x with apg := { x.apg with regs := x.apg.regs.set o i.2 } }
    | _ => x) x

/-- A bench with the items of the parameter memory that travel with its queued beats (R21). -/
def Bench.ahead (x : Bench) : Bench :=
  (x.fifo.flatMap (·.items)).foldl (fun x i =>
    let put (p : LaneP) : LaneP := p.set (i.1 % 0x100) (i.2 &&& laneMask (i.1 / 0x100) (i.1 % 0x100))
    { x with lanes := tmod {} x.lanes (i.1 / 0x100) put }) x

/-- The armed APPLYs that are still to land in gang g, in the order of their arming. -/
def State.armedIn (s : State) (g : Nat) : List Apply :=
  s.img.applies.filter fun a => a.armed && a.gangs.contains g && (tfind a.landed g).isNone && !a.ended.contains g

/-- Bench b as it would stand with a list of items, beside those that travel with its queued beats (R259). -/
def State.after (s : State) (b : Nat) (its : List (Word × Word)) : Bench :=
  ((s.bench b).ahead).withItems b (s.apgBenches b) its

/-- The subsystem code with which a direct write of an item of a list would be refused in the state that would hold after all
of them, 0 for none (R259). Mapped periods left unequal are MISMATCH (R84, R92). -/
def State.itemCode (s : State) (g : Nat) (its : List (Word × Word)) (t : Word) : Nat :=
  let b := itBench t
  let o := itOff t
  let x := s.after b its
  let equal := (s.gangBenches g).all fun c => (s.after c its).tmg.periods == x.tmg.periods
  match itSpace t with
  | 0 =>
    let c := mapCode x (s.bw b)
    if c ≠ 0 then c else if equal then 0 else 0xC
  | 1 =>
    if x.tmg.mapped.contains (o / 0x200) then
      let c := mapCode x (s.bw b)
      if c = 8 then 5 else if c ≠ 0 then c else if equal then 0 else 0xC
    else 0
  | 2 =>
    let l := o / 0x100
    firstCode ((x.laneForms l).flatMap fun q => (x.laneForms (otherLane l)).map fun p =>
      laneCode q p x.tmg l (o % 0x100) ((q.get (o % 0x100)).getD 0))
  | 3 => x.apg.regs.code
  | _ => 0

/-- The first item of an APPLY that a direct write would refuse, after the items that pre lists for its gang: code, index among
its bench's items, bench. -/
def State.badItem (s : State) (gs : List Nat) (pre : Nat → List (Word × Word)) (its : List (Word × Word)) :
    Option (Nat × Nat × Nat) :=
  gs.findSome? fun g => (s.gangBenches g).findSome? fun b =>
    (its.filter fun i => itBench i.1 = b).zipIdx.findSome? fun i =>
      let c := s.itemCode g (pre g ++ its) i.1.1
      if c = 0 then none else some (c, i.2, b)

/-! ## Landing and ending (R260) -/

/-- Identity of an APPLY: its port and its job's tag. -/
def Apply.is (a : Apply) (p : Nat) (tag : BitVec 16) : Bool := a.port == p && a.tag == tag

def State.modApply (p : Nat) (tag : BitVec 16) (f : Apply → Apply) (s : State) : State :=
  s.modImg fun x => { x with applies := modFirst (fun a => a.is p tag) f x.applies }

def State.applyStat (p : Nat) (v : ApplyStat) (s : State) : State :=
  s.modImg fun x => { x with apply := tput x.apply p v }

/-- An APPLY job is refused with a reason (R259). -/
def State.applyRefuse (p : Nat) (tag : BitVec 16) (v : ApplyStat) (s : State) : State :=
  (s.applyStat p { v with state := 3 }).endJob p tag stApply v.reason v.beat

/-- The landing beat of the lowest-numbered gang in which an APPLY landed, 0 where none. -/
def Apply.beat (a : Apply) : Nat :=
  match a.landed with
  | [] => 0
  | q :: r => (r.foldl (fun m x => if x.1 < m.1 then x else m) q).2

/-- The job completes once its APPLY has landed or ended in every named gang. -/
def State.applyFin (p : Nat) (tag : BitVec 16) (s : State) : State :=
  match s.img.applies.find? fun a => a.is p tag with
  | none => s
  | some a =>
    if a.gangs.all fun g => (tfind a.landed g).isSome || a.ended.contains g then
      let s := s.modImg fun x => { x with applies := x.applies.filter fun b => !b.is p tag }
      match a.ended.min? with
      | none => (s.applyStat p { state := 2, beat := a.beat }).endJob p tag stOk 0 a.beat
      | some g =>
        (s.applyStat p { state := 4, reason := 0xA, bench := s.lead g, beat := a.beat }).endJob p tag stApply 0xA a.beat
    else s

/-- The armed APPLYs of a gang end in it. -/
def State.applyEnd (g : Nat) (s : State) : State :=
  (s.img.applies.filter fun a => a.armed && a.gangs.contains g && (tfind a.landed g).isNone && !a.ended.contains g).foldl
    (fun s a => (s.modApply a.port a.tag fun x => { x with ended := g :: x.ended }).applyFin a.port a.tag) s

/-- An armed APPLY lands in gang g on beat n, which issues now (R26, R124). flagBeat tells a first beat with CUT. -/
def Apply.hits (a : Apply) (g n tick grid : Nat) (flagBeat : Bool) : Bool :=
  a.armed && a.gangs.contains g && (tfind a.landed g).isNone && !a.ended.contains g &&
    match a.cut with
    | .flag => flagBeat && decide (a.armTick < tick)
    | .beat m => m == n
    | .epoch e => decide (256 * e ≤ grid)
    | .none => false

/-- An APPLY lands in gang g on beat n, after the items of the parameter memory that q lists for the same beat. Direct writes
since its arming can have made an item illegal: the landing is then refused, so that no mapped entry or lane word becomes
illegal (R80; log 87). -/
def State.landApply (g n : Nat) (a : Apply) (q : List (Word × Word) × State) : List (Word × Word) × State :=
  let its := a.items.filter fun i => (q.2.gangBenches g).contains (itBench i.1)
  match q.2.badItem [g] (fun _ => q.1) its with
  | some (code, item, b) =>
    (q.1, (q.2.modImg fun x => { x with applies := x.applies.filter fun c => !c.is a.port a.tag }).applyRefuse a.port a.tag
      { reason := 5, code := code, item := item, bench := b, beat := a.beat })
  | none =>
    let t := its.foldl (fun s i => s.landItem i) q.2
    (q.1 ++ its.filter (fun i => itSpace i.1 = 2),
      (t.modApply a.port a.tag fun x => { x with landed := tput x.landed g n }).applyFin a.port a.tag)

/-- The APPLYs that land in gang g on beat n, in the order in which they were armed (R27). Their slot map, library and APG
items act at once, since they are used as the beat resolves, and the answer lists their items of the parameter memory, which
travel with the beat (R21). -/
def State.landCuts (g n : Nat) (flagBeat : Bool) (s : State) : List (Word × Word) × State :=
  (s.img.applies.filter fun a => a.hits g n s.now s.grid flagBeat).foldl (fun q a => State.landApply g n a q) ([], s)

/-! ## The end of a run -/

/-- Code of a sequencer state (R128). -/
def SeqState.code : SeqState → Nat
  | .idle => 0 | .armed => 1 | .issue => 2 | .wait => 3 | .sync => 4 | .hstall => 5 | .keepalive => 6 | .drain => 7
  | .halted => 8 | .stopped => 9 | .faulted => 10 | .gated => 11

/-- The sequencers of a gang take a state; a gated bench keeps it until it wakes (R333). -/
def State.setRun (g : Nat) (q : SeqState) (s : State) : State :=
  s.each (s.gangBenches g) fun b => State.modSeq b fun x =>
    if x.state = .gated then { x with heldState := q } else { x with state := q }

/-- The state of a gang's sequencers, seen through gating. -/
def State.runState (s : State) (g : Nat) : SeqState :=
  let q := (s.bench (s.lead g)).seq
  if q.state = .gated then q.heldState else q.state

/-- Low-water state of a bench's stream (R159). -/
def State.lowUpdate (b : Nat) (s : State) : State :=
  let x := s.bench b
  let level := x.strm.cfg.lowater.toNat * 4096
  let below := decide (x.strm.prod < x.strm.cons + level)
  let on := x.strm.cfg.fmt != 0 && x.strm.cfg.hostFed && level != 0
  let low := on && below && !x.strm.eos && x.seq.state.running
  let posted := x.strm.lwPosted && below
  let s := s.modStrm b fun y => { y with low := low, lwPosted := posted, lwSeen := y.lwSeen || (low && !y.low) }
  if low && !x.strm.low && !posted then
    (s.modStrm b fun y => { y with lwPosted := true }).noticeTo (s.benchOwner b) 0x02 b s.now 0
  else s

/-- RUN STOP jobs whose gangs have all ended complete (R271, R272). -/
def State.runStops (s : State) : State :=
  s.each (List.range 4) fun p s =>
    ((s.port p).jobs.filter fun j => j.phase == .running && j.type == 1 && fld (j.w 1) 0 2 == 1).foldl
      (fun s j =>
        let gs := bitsSet 64 (j.w64 2)
        if gs.all fun g => !(s.gangState g).busy then
          s.endJob p j.tag stOk 0 (s.bench (s.lead (gs.headD 0))).seq.beat
        else s) s

/-- Every beat of the gang has left the pins and the fail pipeline. -/
def State.empty (s : State) (g : Nat) : Bool :=
  (s.gangBenches g).all fun b => (s.bench b).fifo.isEmpty && (s.bench b).flight.isEmpty

/-- A gang's run ends in a final state: its APPLYs end, the RUN_END notice is posted and RUN STOP jobs complete. After a
sequencer fault the beats in the FIFO still play, and the captures close when the last result has returned (R125, R188). -/
def State.gangEnds (g : Nat) (final : SeqState) (s : State) : State :=
  let safe := (s.gang g).stopSafe
  let s := (s.setRun g final).modGang g fun x => { x with stopReq := false, stopSafe := false, chosen := false }
  let s := s.each (s.gangBenches g) fun b s =>
    (s.modStrm b fun y => { y with short := false }).lowUpdate b
  let s := if safe then s.each (s.gangBenches g) State.benchSafe else s
  let s := s.applyEnd g
  let s := s.noticeTo (s.ownerOf (some (s.gang g).cfg.partition)) 0x0B g (s.bench (s.lead g)).seq.beat final.code
  let s := if final = .faulted || !s.empty g then s else s.runEnd g
  s.runStops

/-- DRAIN_COMPLETE (R110, R127): the last vector has completed its cycle and the last result has returned. -/
def State.drainDone (g : Nat) (s : State) : State :=
  if s.gangState g = .drain ∧ s.empty g then
    let s := s.advanceTo (ceilDiv (s.bench (s.lead g)).nextT 5000)
    s.gangEnds g (if (s.gang g).stopReq then .stopped else .halted)
  else s

/-- A gang that a fault or a reset has ended has had its last result return: its captures and its engines' intake close (R125,
R188). -/
def State.faultTail (g : Nat) (s : State) : State :=
  if (s.runState g = .faulted ∨ s.runState g = .stopped) ∧ s.empty g then s.runEnd g else s

/-- The gang is between beats, where a boundary's choice is to be made (R119): not inside a REPEAT, nor with a microword
already chosen. -/
def State.atBoundary (s : State) (g : Nat) : Bool :=
  let x := s.bench (s.lead g)
  !(s.gang g).chosen && !(decide (0 < x.seq.rem) && muOp (tget 0 x.micro x.seq.next) == 1)

/-- A bench of the gang has a full FIFO (R18). -/
def State.fifoFull (s : State) (g : Nat) : Bool := (s.gangBenches g).any fun b => decide (64 ≤ (s.bench b).fifo.length)

/-- A requested stop takes effect at a boundary (R127). Under an under-run it waits for the keep-alive beat (R168). -/
def State.stopNow (g : Nat) (s : State) : State :=
  let q := s.gangState g
  if (s.gang g).stopReq ∧ (q = .issue ∨ q = .wait ∨ q = .sync) ∧ s.atBoundary g ∧ !s.fifoFull g then s.setRun g .drain
  else s

/-- A STOP write, a stop job or orphan hold reaches a gang (R127, R168). safe tells orphan hold. -/
def State.stopGang (g : Nat) (safe : Bool) (s : State) : State :=
  let q := s.gangState g
  if q = .armed ∧ s.grid < 256 * (s.gang g).startEpoch then
    (s.modGang g fun x => { x with stopSafe := safe }).gangEnds g .stopped
  else if q = .drain then s.modGang g fun x => { x with stopSafe := x.stopSafe || safe }
  else if q.busy then
    (s.modGang g fun x => { x with stopReq := true, stopSafe := x.stopSafe || safe }).stopNow g
  else if safe then s.each (s.gangBenches g) State.benchSafe
  else s

end Sys2Proof.Machine
end

