-- ==== Sys2Proof/Machine/Fault.lean ====
section
/-! DEFINITION. Fault detection and the reactions of each class (R340 to R350, R356). -/

namespace Sys2Proof.Machine

/-! ## Sources (R340 to R342) -/

/-- Default class: 0 CE, 1 UC, 2 FT. -/
def defaultClass (src : Nat) : Nat :=
  if src < 1312 then 1
  else if src < 1328 then (if src % 4 = 3 then 0 else 1)
  else if src < 1332 then 2
  else if src < 1336 then 0
  else 2

/-- The class in force for a source. -/
def State.srcClass (s : State) (src : Nat) : Nat := (tfind s.flt.cls src).getD (defaultClass src)

/-- The class in force for a detection: a rail fault is at least UC (R344). -/
def State.effClass (s : State) (src : Nat) : Nat :=
  if tget false s.flt.active src then max 1 (s.srcClass src) else s.srcClass src

/-- Group of a source, the index of its quiet period (R351). -/
def srcGroup (src : Nat) : Nat :=
  if src < 1024 then 0 else if src < 1216 then 1 else if src < 1280 then 2 else if src < 1312 then 3
  else if src < 1328 then 4 else if src < 1336 then 5 else if src < 1344 then 6 else 7

/-- FLT_QUIET(k) in µs. -/
def State.quietUs (s : State) (k : Nat) : Nat := tget 200 s.flt.quiet k

/-- The sites of the attribution of a source; a corrected source has none (R340). -/
def State.srcSites (s : State) (src : Nat) : List Nat :=
  if src < 1024 then (s.siteOf (src / 16) (src / 2 % 8)).toList
  else if src < 1216 then
    let b := (src - 1024) / 3
    if (src - 1024) % 3 = 0 then ((s.gangOf b).map s.sitesOfGang).getD (s.sitesOfBench b) else s.sitesOfBench b
  else if src < 1280 then ((s.mon (src - 1216)).assign.site).toList
  else if 1312 ≤ src ∧ src < 1328 ∧ src % 4 ≠ 3 then
    s.siteIxs.filter fun i => (s.partsOf ((src - 1312) / 4)).contains (s.sitePart i)
  else []

/-- The channel of the attribution of a source on a channel that no site holds (R341). -/
def State.srcLone (s : State) (src : Nat) : Option (Nat × Nat) :=
  if src < 1024 ∧ (s.siteOf (src / 16) (src / 2 % 8)).isNone then some (src / 16, src / 2 % 8) else none

/-- The partitions that the attribution of a source touches (R341, R356). -/
def State.srcParts (s : State) (src : Nat) : List Nat :=
  (s.srcSites src).map s.sitePart ++
    (if src < 1024 then (s.benchPart (src / 16)).toList else []) ++
    (if 1216 ≤ src ∧ src < 1280 then [(s.mon (src - 1216)).assign.partition] else []) ++
    (if 1280 ≤ src ∧ src < 1312 then [(s.acq (src - 1280)).cfg.partition] else []) ++
    (if 1312 ≤ src ∧ src < 1328 ∧ src % 4 ≠ 3 then s.partsOf ((src - 1312) / 4) else [])

/-- Notices to the administrator port and to the owning ports of a list of partitions, one for each port (R356). -/
def State.faultNotice (ty src : Nat) (parts : List Nat) (tick detail : Nat) (s : State) : State :=
  let ports := (s.top.adminPort :: (parts.filterMap fun p => s.ownerOf (some p))).eraseDups
  ports.foldl (fun s p => s.notice p ty src tick detail) s

/-- Bits of DETAIL that name a site, where the attribution is one site (R356). -/
def siteDetail : List Nat → Nat
  | [i] => 0x8000 + 256 * i
  | _ => 0

/-! ## Latch and counts (R345, R346) -/

/-- The collector's present cycle: 4 ticks with the main PLL locked, and one of the 32 MHz cycles without (R343). -/
def State.cycle (s : State) : Nat × Nat × Bool :=
  (if s.clk.pllLock then s.now / 4 else s.now, s.clk.offCycles, s.clk.pllLock)

/-- The collector takes the latched detection and one now on one cycle (R345). -/
def State.sameCycle (s : State) : Bool := s.flt.firstCycle == s.cycle

/-- The first-error latch and the counters take a detection of class c. Of detections of one class on one cycle the
lowest-numbered source is latched. -/
def State.latchFault (src c sub : Nat) (rail : Bool) (s : State) : State :=
  let lower := s.sameCycle && s.flt.firstClass == c && decide (src < s.flt.firstSrc)
  s.modFlt fun f =>
    let f :=
      if !f.firstValid || f.firstClass < c || lower then
        { f with overflow := f.overflow || f.firstValid, firstValid := true, firstRail := rail, firstSub := sub,
                 firstClass := c, firstSrc := src, firstCycle := s.cycle, firstTick := BitVec.ofNat 64 s.now,
                 firstSec := BitVec.ofNat 48 s.time.sec, firstNs := BitVec.ofNat 30 s.timeNs }
      else { f with overflow := true }
    match c with
    | 0 => { f with cntCe := f.cntCe.add 1, seen := tput f.seen src true }
    | 1 => { f with cntUc := f.cntUc.add 1, seen := tput f.seen src true }
    | _ => { f with cntFt := f.cntFt.add 1, seen := tput f.seen src true }

/-! ## Jobs and gating -/

/-- What a job leaves behind when it is dropped (R269, R274): a guyline start stops waiting, a comparator is disarmed, and an
APPLY is discarded, one that is armed ending with ENDED (R260). -/
def State.dropJob (p : Nat) (j : Job) (s : State) : State :=
  match j.type with
  | 1 => s.modGuy fun g =>
    let rest := g.waiting.filter fun w => !(w.1 = p && w.2.1 = j.tag)
    { g with waiting := rest, state := if rest.isEmpty && !g.waiting.isEmpty then 0 else g.state }
  | 6 =>
    let t := s.modImg fun x => { x with applies := x.applies.filter fun a => !a.is p j.tag }
    match s.img.applies.find? fun a => a.is p j.tag && a.armed with
    | none => t
    | some a =>
      let ended := a.gangs.filter fun g => (tfind a.landed g).isNone
      t.applyStat p { state := 4, reason := 0xA, bench := s.lead (ended.min?.getD 0), beat := a.beat }
  | 8 => s.each (List.range 16) fun i => State.modCmp i fun c =>
    if c.port = p ∧ c.tag = j.tag then { c with armed := false } else c
  | _ => s

/-- The jobs of a port in flight that satisfy a test end with ABORTED. -/
def State.abortJobs (p : Nat) (c : Job → Bool) (s : State) : State :=
  let js := (s.port p).jobs.filter fun j => j.phase != .ended && c j
  js.foldl (fun s j => (s.dropJob p j).endJob p j.tag stAborted 0 j.done) s

/-- FENCE jobs of a port end normally (R349). -/
def State.endFences (p : Nat) (s : State) : State :=
  ((s.port p).jobs.filter fun j => j.phase != .ended && j.type == 0x09).foldl
    (fun s j => s.endJob p j.tag stOk 0 0) s

/-- Bench b is gated (R333). -/
def State.gateBench (b : Nat) (s : State) : State :=
  (s.benchSafe b).modBench b fun x => { x with
    awake := false, waking := false, dllLock := false,
    seq := if x.seq.state = .gated then x.seq else { x.seq with state := .gated, heldState := x.seq.state } }

/-- The device is in RUN while a bench is awake (R331). -/
def State.runOrReady (s : State) : State :=
  if s.pwr.pstate = .ready ∨ s.pwr.pstate = .run then
    s.modPwr fun p => { p with pstate := if s.benches.any (fun x => x.2.awake) then .run else .ready }
  else s

/-! ## UC reaction (R348, R350) -/

/-- The engines of a site in INTAKE, which a fault reaction puts in safe state, are INCOMPLETE (R188). -/
def State.intakeCut (i : Nat) (s : State) : State :=
  (s.enginesOf i).foldl (fun s e => s.modRae e fun r =>
    if r.state = .intake then { r with incomplete := true } else r) s

/-- A UC fault touches a site: a reaction starts where the site is NORMAL. -/
def State.siteFault (src i : Nat) (s : State) : State :=
  let x := s.site i
  let us := s.quietUs (srcGroup src)
  let s := s.modSite i fun x => { x with lastSrc := src }
  if s.pwr.pstate = .fault then s
  else match x.state with
    | .latched => s
    | .normal =>
      let s := s.modSite i fun x => { x with state := .safe, reactEnd := s.mono + 6400, quietUs := us, releaseAt := none }
      let s := x.chans.foldl (fun s c => s.enterSafe c.1 c.2) s
      let s := s.intakeCut i
      s.each (List.range 4) fun p => State.abortJobs p fun j =>
        j.type == 5 && (bitsSet 64 (j.w64 2)).any fun b => x.cfg.benches.contains b
    | _ => s.modSite i fun x => { x with state := .safe, quietUs := max x.quietUs us, releaseAt := none }

/-- The UC reaction of a source. -/
def State.ucReact (src : Nat) (s : State) : State :=
  let sites := s.srcSites src
  let react := s.pwr.pstate != .fault
  let fresh := sites.filter fun i => react && (s.site i).state == .normal
  let gangs := (fresh.map fun i => (s.site i).cfg.gang).eraseDups
  let parts := s.srcParts src
  let s := s.each sites (State.siteFault src)
  let s := match s.srcLone src with
    | some (b, l) =>
      (s.modChan b l fun c => { c with
        faultHold := true, quietFrom := none, reactEnd := if c.faultHold then c.reactEnd else s.mono + 6400 }).enterSafe b l
    | none => s
  let s := if 1280 ≤ src ∧ src < 1312 then s.acqStop (src - 1280) else s
  let s := s.faultNotice 0x10 src parts s.now (1 + siteDetail sites)
  let s := gangs.foldl (fun s g => s.assertEvt (s.lead g) 1) s
  if 1312 ≤ src ∧ src < 1328 then s.abortJobs ((src - 1312) / 4) fun j => j.type != 9 else s

/-! ## FT reaction (R349) -/

/-- A gang stops without a further beat. The results of beats already at the pins still return, with the compares of the vectors
that reach the pins after the request dropped (R56, R188, R349). -/
def State.ftStop (g : Nat) (s : State) : State :=
  let busy := (s.runState g).busy
  let s := s.each (s.gangBenches g) fun b => State.modBench b fun x => { x with fifo := [] }
  if busy then s.gangEnds g .stopped else s.faultTail g

/-- Every lane 7 discharge path connects. -/
def State.dischargeAll (s : State) : State :=
  s.each (List.range 64) fun b => State.modChan b 7 fun c =>
    if c.discharge then c
    else { c with discharge := true, dischargeEnd := s.now + 800000, parkForce := false, ppmuOn := false }

/-- The FT reaction of the device. A main PLL that was off begins to lock, with N and WIN as they are (R324, R354). -/
def State.ftReact (src : Nat) (s : State) : State :=
  let ran := s.anyRunning
  let s := if s.pwr.pstate = .idle then s.modClk fun c => { c with acqN := c.lockN, acqWin := c.lockWin } else s
  let s := s.modPwr fun p => { p with pstate := .fault, selfRefresh := true }
  let s := s.modTop fun t => { t with cwRun := false, cwOk := false }
  let s := s.modFlt fun f => { f with faultN := true, ftFrom := s.mono + 32000, leaving := false }
  let s := if s.guy.g6Out && ran then s.modGuy fun g => { g with g6Driving := true } else s
  let s := (s.each (List.range 64) State.benchSafe).each s.siteIxs State.intakeCut
  let s := s.dischargeAll
  let s := s.each (List.range 4) fun p s => (s.abortJobs p fun j => j.type != 9).endFences p
  let s := s.each s.gangIxs State.ftStop
  let s := s.each (List.range 64) State.gateBench
  let s := s.each (List.range 32) State.acqStop
  let s := s.pspiSafe
  s.faultNotice 0x10 src (s.partPort.map (·.1)) s.now 2

/-! ## Detection -/

/-- The core clock is stopped: the collector samples the always-on sources alone (R343). In FAULT it is where the main PLL has not
locked since it was off. -/
def State.coreOff (s : State) : Bool :=
  match s.pwr.pstate with
  | .off | .aon | .idle => true
  | .transit => !s.clk.pllLock
  | .fault => !s.clk.ran
  | _ => false

/-- A port after a reset: only the host memory and the messages sent, which are not the device's, are kept. -/
def Port.reset (x : Port) : Port := { hostMem := x.hostMem, msix := x.msix }

/-- A fatal fault before the first READY: FAULT_N is asserted, and the device stays in AON or falls back to it until the next
cold reset (R330, R363). -/
def State.stickInAon (s : State) : State :=
  let s := (s.modTop fun t => { t with phase := .stuck }).modFlt fun f => { f with faultN := true }
  let s := s.modPwr fun p => { p with pstate := .aon, dieUp := false, selfRefresh := true }
  let s := s.modClk fun c => { c with pllLock := false, ran := false }
  { s with ports := s.ports.map fun p => (p.1, p.2.reset) }

/-- A source is detected asserted (R343 to R349). A fatal self-check source before the device has reached READY keeps it in
AON (R363). In AON, which R331 does not leave for FAULT, a fatal fault asserts FAULT_N and waits for the device to leave AON
(log 96). -/
def State.sample (src : Nat) (rail : Bool) (sub : Nat) (s : State) : State :=
  let again := match tfind s.flt.active src with
    | some r => r || !rail
    | none => false
  if again then s
  else
    let seenBefore := tget false s.flt.seen src
    let s := s.modFlt fun f => { f with active := tput f.active src rail }
    let c := s.effClass src
    let s := s.latchFault src c sub rail
    match c with
    | 0 => if seenBefore then s else s.faultNotice 0x10 src (s.srcParts src) s.now 0
    | 1 => s.ucReact src
    | _ =>
      if s.pwr.pstate = .fault then
        (s.modFlt fun f => { f with leaving := false }).faultNotice 0x10 src (s.partPort.map (·.1)) s.now 2
      else if !s.top.wasReady ∧ 1336 ≤ src ∧ src < 1344 then s.stickInAon
      else if s.pwr.pstate = .aon then s.modFlt fun f => { f with faultN := true }
      else s.ftReact src

/-- A source asserts. It is detected now, or once the core clock runs where it is not sampled; one that read asserted before and
has dropped meanwhile was never seen to (R343). -/
def State.raise (src : Nat) (rail : Bool) (sub : Nat) (s : State) : State :=
  if s.coreOff ∧ src < 1336 then s.modFlt fun f => { f with
    dropped := f.dropped.erase src, unsampled := tput f.unsampled src (rail || tget false f.unsampled src) }
  else s.sample src rail sub

/-- The core clock runs again: the sources still asserted that it was too still to sample are detected, the lowest first. -/
def State.sampleAgain (s : State) : State :=
  let due := s.flt.unsampled
  due.foldl (fun s x => s.sample x.1 x.2 0) (s.modFlt fun f => { f with unsampled := [] })

/-- The device leaves AON with a fatal source still asserted: the reaction takes place (R349; log 96). -/
def State.fatalLeft (s : State) : State :=
  match s.flt.active.find? fun x => s.effClass x.1 == 2 with
  | some x => s.ftReact x.1
  | none => s

end Sys2Proof.Machine
end

