-- ==== Sys2Proof/Machine/Mon.lean ====
section
/-! DEFINITION. The window monitors: references, levels, trips, periods, ramps and register writes (R227 to R240). Voltages and references are exact, times 2^298. -/

namespace Sys2Proof.Machine

/-! ## Fields -/

def Mon.en (x : Mon) : Bool := bit x.cfg 31
def Mon.isRamp (x : Mon) : Bool := bit x.cfg 28
def Mon.check (x : Mon) : Nat := fld x.cfg 24 2
def Mon.pattern (x : Mon) : Bool := bit x.cfg 22
/-- HYST in mV. -/
def hystMv (cfg : Word) : Nat :=
  match fld cfg 26 2 with
  | 0 => 0 | 1 => 10 | 2 => 20 | _ => 40
/-- HYST in volts. -/
def Mon.hyst (x : Mon) : Int := f32Dec (hystMv x.cfg) 1000 * 2 ^ 149
/-- A voltage of a word. -/
def volt (v : Word) : Int := f32Num v * 2 ^ 149

/-! ## References (R229, R230) -/

/-- The ramp centre times 10^8 × 2^149, and whether it has reached RAMP_END. -/
def Mon.centre (x : Mon) : Int × Bool :=
  let slope := signed 16 x.slope.toNat
  let rc := f32Num x.rampStart * 100000000 + x.rampN * slope * 625 * 2 ^ 149
  let e := f32Num x.rampEnd * 100000000
  if x.ramping ∧ ((0 < slope ∧ e ≤ rc) ∨ (slope < 0 ∧ rc ≤ e)) then (e, true) else (rc, false)

/-- The voltage that a window DAC gives for num / den times 2^149 V, by table t. -/
def State.windowRef (s : State) (t : Nat) (num : Int) (den : Nat) : Int :=
  let c := s.mirrorCoef t (some (f32Dec 16 10000))
  valueOf 12 c (codeFor 12 c num den)

/-- Upper and lower reference of monitor m; none where the comparator is disabled. -/
def State.monRefs (s : State) (m : Nat) : Option Int × Option Int :=
  let x := s.mon m
  let tu := 8192 + 2 * m
  if !x.isRamp then (some (s.windowRef tu (f32Num x.upper) 1), some (s.windowRef (tu + 1) (f32Num x.lower) 1))
  else
    let d : Nat := 100000000
    let o := f32Num x.rampOfs * d
    let rc := x.centre.1
    (if f32Dec 65 10 * d < rc + o then none else some (s.windowRef tu (rc + o) d),
     if rc - o < 0 then none else some (s.windowRef (tu + 1) (rc - o) d))

/-! ## Levels (R231 to R234) -/

/-- The monitor is blanked now (R232). -/
def State.blanked (s : State) (m : Nat) : Bool :=
  match (s.mon m).blankEnd with
  | some t => decide (s.now < t)
  | none => false

/-- Whether the upper comparator is high, and the lower one low, with the input at v. -/
def State.monLevel (s : State) (m : Nat) (v : Int) : Bool × Bool :=
  let x := s.mon m
  let r := s.monRefs m
  ((match r.1 with
    | none => false
    | some u => if x.isHigh then decide (u - x.hyst ≤ v) else decide (u < v)),
   (match r.2 with
    | none => false
    | some l => if x.isLow then decide (v ≤ l + x.hyst) else decide (v < l)))

/-- A live monitor: enabled, settled, unblanked. -/
def State.monLive (s : State) (m : Nat) : Bool := (s.mon m).en && (s.mon m).settled && !s.blanked m

/-- CODE of a settled monitor. -/
def monCodeOf (hi lo : Bool) : MonCode := if hi then .high else if lo then .low else .inside

/-- The comparators take a level. -/
def State.monTake (m : Nat) (hi lo : Bool) (s : State) : State :=
  s.modMon m fun x => { x with isHigh := hi, isLow := lo, code := monCodeOf hi lo }

/-- The level is a trip: the monitor goes HIGH or LOW with the matching latch bit clear. -/
def Mon.trips (x : Mon) (hi lo : Bool) : Bool × Bool :=
  (hi && !x.isHigh && !x.tripHi, lo && !x.isLow && !x.tripLo)

/-- The reactions of a trip (R237). -/
def State.monReact (m : Nat) (hi lo : Bool) (s : State) : State :=
  let a := (s.mon m).assign
  let s := s.pulse (104 + m)
  let s := if a.react.getLsbD 0 then
      s.noticeTo (s.monOwner m) 0x05 m s.now ((if lo then 1 else 0) + (if hi then 2 else 0))
    else s
  let s := match a.react.getLsbD 1, a.site with
    | true, some i => s.assertEvt (s.lead (s.site i).cfg.gang) 0
    | _, _ => s
  if a.react.getLsbD 2 then s.raise (1216 + m) false 0 else s

/-- MON_TRIP: the input reaches a level that trips the monitor (R234). -/
def State.monTrip (m : Nat) (v : Word) (s : State) : State :=
  if !s.monLive m || !f32Finite v then s
  else
    let (hi, lo) := s.monLevel m (volt v)
    let t := (s.mon m).trips hi lo
    if t.1 || t.2 then
      ((s.monTake m hi lo).modMon m fun x => { x with
        tripHi := x.tripHi || t.1, tripLo := x.tripLo || t.2, hiAt := if t.1 then some s.mono else x.hiAt,
        loAt := if t.2 then some s.mono else x.loAt }).monReact m t.1 t.2
    else s

/-- MON_RETURN_TO_NORMAL: the input reaches a level that trips nothing (R231, R234). -/
def State.monReturn (m : Nat) (v : Word) (s : State) : State :=
  if !s.monLive m || !f32Finite v then s
  else
    let (hi, lo) := s.monLevel m (volt v)
    let t := (s.mon m).trips hi lo
    if t.1 || t.2 then s else s.monTake m hi lo

/-- MON_SETTLE: the first decisive level (R233). -/
def State.monSettle (m : Nat) (v : Word) (s : State) : State :=
  let x := s.mon m
  let r := s.monRefs m
  let inside := (match r.1 with
    | none => true
    | some u => decide (volt v + x.hyst ≤ u)) && (match r.2 with
    | none => true
    | some l => decide (l + x.hyst ≤ volt v))
  if x.en && !x.settled && !s.blanked m && f32Finite v && inside then
    (s.modMon m fun y => { y with settled := true }).monTake m false false
  else s

/-- MON_BLANK_END (R232). -/
def State.monBlankEnd (m : Nat) (s : State) : State :=
  match (s.mon m).blankEnd with
  | none => s
  | some t => (s.advanceTo t).modMon m fun x => { x with blankEnd := none }

/-! ## Periods (R234 to R236) -/

/-- Latch bits cleared at an instant: a bit set by a trip on that very tick stays set (R234). -/
def Mon.unlatch (x : Mon) (t : Nat) (hi lo : Bool) : Mon :=
  { x with tripHi := x.tripHi && (!hi || x.hiAt == some t), tripLo := x.tripLo && (!lo || x.loAt == some t) }

/-- The end of a monitor period clears each latch bit whose comparator has returned to normal. -/
def State.monClear (m : Nat) (s : State) : State := s.modMon m fun x => x.unlatch s.mono (!x.isHigh) (!x.isLow)

/-- MON_PERIOD_END: a TIMER period ends, or a PATTERN period at a PERIOD beat, which clears by itself (R235). -/
def State.monPeriodEnd (m : Nat) (s : State) : State :=
  let x := s.mon m
  if !x.en || x.pattern then s
  else
    ((s.advanceTo x.periodEnd).monClear m).modMon m fun y => { y with periodEnd := x.periodEnd + 800 * y.period.toNat }

/-- The instant of a beat with the PERIOD flag of gang g ends the pattern periods (R95, R235). -/
def State.monPattern (g : Nat) (s : State) : State :=
  s.each ((s.mons.filter fun x => x.2.en && x.2.pattern && match x.2.assign.site with
    | some i => (s.site i).cfg.gang == g
    | none => false).map (·.1)) State.monClear

/-! ## Ramps (R230) -/

/-- The ramp starts or restarts. -/
def State.monRamp (m : Nat) (s : State) : State :=
  s.modMon m fun x =>
    let y := { x with ramping := true, rampN := 0, rampAt := s.grid }
    { y with rampDone := y.centre.2 }

/-- The MARK instant of bench b starts the ramps of its monitors. -/
def State.monMark (b : Nat) (s : State) : State :=
  s.each ((s.mons.filter fun x => x.2.assign.rampBench = b).map (·.1)) State.monRamp

/-- MON_RAMP_STEP: the next sample grid point. -/
def State.monRampStep (m : Nat) (s : State) : State :=
  let x := s.mon m
  if !x.ramping then s
  else
    let p := gridAfter 1 x.rampAt
    (s.advanceTo (s.now + (p - s.grid))).modMon m fun x =>
      let y := { x with rampN := x.rampN + 1, rampAt := p }
      { y with rampDone := y.rampDone || y.centre.2 }

/-! ## Registers (R228, R232, R236, R239, R240) -/

/-- A refused write of the MON block. -/
def State.monRefuse (code off : Nat) (s : State) : State :=
  { s with monErr := true, monErrCode := code, monErrAddr := off }

/-- A write while EN = 1 that blanks the monitor. -/
def State.monBlank (m : Nat) (s : State) : State :=
  s.modMon m fun x => if x.en then { x with blankEnd := some (s.now + 1600) } else x

/-- UPPER − LOWER exceeds 2 × HYST, taken as the nearest binary32 value (R6, R229). -/
def windowOk (u l cfg : Word) : Bool := decide (f32Dec (2 * hystMv cfg) 1000 < f32Num u - f32Num l)

/-- Code with which a write of MON_CFG is refused, 0 for none. -/
def Mon.cfgCode (x : Mon) (v : Word) : Nat :=
  if fld v 24 2 = 3 then 2
  else if (x.en && fld v 24 2 != 0) || (bit v 31 && (x.check != 0 || fld v 24 2 != 0)) then 4
  else if (bit v 22 && x.assign.site.isNone) || !windowOk x.upper x.lower v then 3
  else 0

/-- A write of MON_CFG (R233, R235, R236). -/
def State.monCfgWrite (m : Nat) (v : Word) (s : State) : State :=
  let x := s.mon m
  let c := x.cfgCode v
  if c ≠ 0 then s.monRefuse c (0x20 * m)
  else
    let w := v &&& 0x9FC00000
    let start := s.now + 800 * x.period.toNat
    let s := if x.en && bit w 31 && bit w 22 != x.pattern then
        (s.monClear m).modMon m fun y => { y with periodEnd := start }
      else s
    let s := s.modMon m fun y =>
      if !bit w 31 then { y with cfg := w, settled := false, code := .unsettled, blankEnd := none }
      else if !y.en then
        { y with cfg := w, settled := false, code := .unsettled, periodEnd := start, ramping := false, rampN := 0,
                 blankEnd := none }
      else { y with cfg := w }
    if x.en && (bit w 28 != x.isRamp || fld w 26 2 != fld x.cfg 26 2) then s.monBlank m else s

/-- Code with which a level word of a monitor is refused: range lo to hi. -/
def monRange (lo hi : Int) (v : Word) : Nat := if !f32Finite v then 1 else if f32In lo hi v then 0 else 2

/-- A write of a monitor register at an offset of its 0x20 bytes other than MON_CFG. -/
def State.monWrite (m off : Nat) (v : Word) (s : State) : State :=
  let x := s.mon m
  let full := f32Dec 65 10
  let put (c : Nat) (f : Mon → Mon) : State :=
    if c ≠ 0 then s.monRefuse c (0x20 * m + off) else (s.modMon m f).monBlank m
  match off with
  | 0x08 =>
    let c := monRange 0 full v
    put (if c = 0 && !windowOk v x.lower x.cfg then 3 else c) fun x => { x with upper := v }
  | 0x0C =>
    let c := monRange 0 full v
    put (if c = 0 && !windowOk x.upper v x.cfg then 3 else c) fun x => { x with lower := v }
  | 0x10 => put (monRange 0 full v) fun x => { x with rampStart := v }
  | 0x14 => put (monRange 0 full v) fun x => { x with rampEnd := v }
  | 0x18 => put (monRange (f32Dec 16 10000) (f32Dec 325 100) v) fun x => { x with rampOfs := v }
  | 0x1C =>
    let sl := signed 16 v.toNat
    let ok := decide (0 < (f32Num x.rampEnd - f32Num x.rampStart) * sl)
    if !ok then s.monRefuse 3 (0x20 * m + off)
    else
      let s := (s.modMon m fun x => { x with slope := v.extractLsb' 0 16 }).monBlank m
      if bit v 31 then s.monRamp m else s
  | _ => s

/-- A write of MON_PERIOD(m) (R236). -/
def State.monPeriodWrite (m : Nat) (v : Word) (s : State) : State :=
  if v = 0 ∨ 1000000 < v.toNat then s.monRefuse 2 (0x900 + 4 * m) else s.modMon m fun x => { x with period := v }

/-- A write of MON_STATUS(m) clears latch bits. -/
def State.monStatusWrite (m : Nat) (v : Word) (s : State) : State :=
  s.modMon m fun x => x.unlatch s.mono (bit v 31) (bit v 30)

/-- Raw comparator outputs for an input v (R239): high above the upper reference, low below the lower one; exchanged, high where
the upper reference is above the input and low where the lower one is below it. A disabled comparator gives 0. -/
def rawCompare (r : Option Int × Option Int) (v : Int) (swap : Bool) : Bool × Bool :=
  let gives (x : Option Int) (f : Int → Bool) : Bool := match x with
    | some y => f y
    | none => false
  (gives r.1 fun u => if swap then decide (v < u) else decide (u < v),
   gives r.2 fun l => if swap then decide (l < v) else decide (v < l))

/-- CHK_HI and CHK_LO in check mode (R239): in TIE the comparators see TIE_SEL; in SWAP the input, whose voltage at a read is a
free value. -/
def State.monCheck (m : Nat) (s : State) : Bool × Bool × State :=
  let x := s.mon m
  match x.check with
  | 2 =>
    let c := rawCompare (s.monRefs m) (if bit x.cfg 23 then f32Dec 25 10 * 2 ^ 149 else 0) false
    (c.1, c.2, s)
  | 1 =>
    let (n, t) := s.free
    let c := rawCompare (s.monRefs m) (volt (wd n)) true
    (c.1, c.2, t)
  | _ => (false, false, s)

/-- MON_STATUS(m). -/
def State.monStatus (m : Nat) (s : State) : Word × State :=
  let x := s.mon m
  let (h, l, s) := s.monCheck m
  let c : Nat := match x.code with
    | .inside => 0 | .high => 1 | .low => 2 | .unsettled => 3
  (flag x.tripHi 31 ||| flag x.tripLo 30 ||| flag x.rampDone 29 ||| flag h 3 ||| flag l 2 ||| wd c, s)

/-- A register of monitor m at an offset of its 0x20 bytes. -/
def Mon.get (x : Mon) (off : Nat) : Word :=
  match off with
  | 0x00 => x.cfg
  | 0x04 => at' x.assign.partition 30 ||| flag x.assign.site.isSome 29 ||| at' (x.assign.site.getD 0) 22 |||
      at' x.assign.rampBench 16 ||| wd x.assign.react.toNat
  | 0x08 => x.upper
  | 0x0C => x.lower
  | 0x10 => x.rampStart
  | 0x14 => x.rampEnd
  | 0x18 => x.rampOfs
  | 0x1C => wd x.slope.toNat
  | _ => 0

end Sys2Proof.Machine
end

