-- ==== Sys2Proof/Machine/Stream.lean ====
section
/-! DEFINITION. Vector streams: availability, consumption, segments, landings, the loop buffer and the stream registers (R150 to R171). -/

namespace Sys2Proof.Machine

/-! ## Positions (R153 to R156) -/

/-- Record size in bytes, 0 for format NONE. -/
def Strm.recSize (t : Strm) : Nat :=
  match t.cfg.fmt with
  | 1 => 2 | 2 => 4 | _ => 0

/-- LIMIT (R155). -/
def Strm.limit (t : Strm) : Nat := t.chw - t.cfg.retain + t.cfg.size

/-- HBM byte address of a stream position. -/
def Strm.addr (t : Strm) (q : Nat) : Nat := t.cfg.base + q % max 1 t.cfg.size

/-- The position that a record needs PROD to cover has been covered 400 ticks before tick t. -/
def Strm.covered (t : Strm) (q tick : Nat) : Bool :=
  if !t.cfg.hostFed then decide (q ≤ t.prod)
  else t.prodHist.any fun h => decide (h.1 + 400 ≤ tick) && decide (q ≤ h.2)

/-- The pinned landing copy that holds n bytes at position q: its landing and the offset. -/
def Strm.copyAt (t : Strm) (q n : Nat) : Option (Nat × Nat) :=
  (t.cfg.landings.find? fun l => tget false t.pinned l.1 && decide (l.2.pos ≤ q) && decide (q + n ≤ l.2.pos + 4096)).map
    fun l => (l.1, q - l.2.pos)

/-- The landing that fills the loop buffer. -/
def Strm.loopLand (t : Strm) : Option Landing := t.loopOf.bind fun l => tfind t.cfg.landings l

/-- The offset of n bytes at position q within the filled part of the loop buffer. -/
def Strm.loopAt (t : Strm) (q n : Nat) : Option Nat :=
  match t.loopLand with
  | some l => if l.pos ≤ q ∧ q + n ≤ l.pos + t.loopFill then some (q - l.pos) else none
  | none => none

/-- How a record stands when a beat would consume it: available, not yet, or overwritten (R155, R163). -/
inductive Avail where
  | ok | short | lost
  deriving DecidableEq

/-- How the record at position q stands on a tick. A record beyond a marked end is never available, not even from a landing pinned
since (R158; log 91). -/
def Strm.avail (t : Strm) (q tick : Nat) : Avail :=
  let n := t.recSize
  if t.eos && decide (t.eosAt < q + n) then .short
  else if (t.copyAt q n).isSome || (t.loopAt q n).isSome then .ok
  else if q < t.prod - t.cfg.size then .lost
  else if t.covered (q + n) tick then .ok else .short

/-- How the next k records from position q stand: lost before short. -/
def Strm.availN (t : Strm) (q tick k : Nat) : Avail :=
  let as := (List.range k).map fun i => t.avail (q + i * t.recSize) tick
  if as.contains .lost then .lost else if as.contains .short then .short else .ok

/-- The stream serves its bench: a format, and not detached (R153, R170). -/
def Strm.live (t : Strm) : Bool := t.cfg.fmt != 0 && !t.detached

/-! ## Consumption (R153, R162) -/

/-- The bytes of the record at CONS, from a landing copy, the loop buffer or the ring. -/
def Strm.fetch (t : Strm) (hbm : Nat → Byte) : List Byte :=
  let n := t.recSize
  match t.copyAt t.cons n, t.loopAt t.cons n with
  | some (l, o), _ => memGetList (tget [] t.landCopy l) o n
  | none, some o => memGetList t.loopData o n
  | none, none => (List.range n).map fun i => hbm (t.addr (t.cons + i))

/-- The record at CONS is consumed, and joins the loop buffer where it continues its filled part. -/
def Strm.consume (t : Strm) (hbm : Nat → Byte) : Strm :=
  let n := t.recSize
  let bs := t.fetch hbm
  let fills := match t.loopLand with
    | some l => decide (t.cons = l.pos + t.loopFill) && decide (t.loopFill + n ≤ l.len)
    | none => false
  let t := if fills then { t with loopData := memPutList t.loopData t.loopFill bs, loopFill := t.loopFill + n } else t
  { t with cons := t.cons + n, chw := max t.chw (t.cons + n), lastRec := some (wd (leNat bs)) }

/-- SEG_OPEN to landing l, discarding n bytes of read-ahead (R161, R162). -/
def Strm.segOpen (t : Strm) (l n : Nat) : Strm :=
  let x := tget {} t.cfg.landings l
  let t := { t with cons := x.pos, chw := max t.chw x.pos, discard := t.discard.add n }
  if x.loopBuf && t.loopOf != some l then { t with loopOf := some l, loopFill := 0, loopData := [] } else t

/-- SEG_OPEN in bench b. A detached bench has no stream to move. -/
def State.segOpenAt (l b : Nat) (s : State) : State :=
  if !(s.bench b).strm.live then s
  else
    let (n, s) := s.free
    let c := (s.bench b).strm.discard
    let s := s.modStrm b fun t => t.segOpen l (n % 16385)
    s.gen1 b (c.rose (s.bench b).strm.discard)

/-! ## PROD, rewind and end of stream (R157 to R161) -/

/-- Landings are pinned once PROD has passed their first 4 KiB (R161). -/
def State.pinLandings (b : Nat) (all : Bool) (s : State) : State :=
  let t := (s.bench b).strm
  t.cfg.landings.foldl (fun s l =>
    if !tget false t.pinned l.1 && (all || decide (l.2.pos + 4096 ≤ t.prod)) then
      let bs := (List.range 4096).map fun i => s.hbmAt (t.addr (l.2.pos + i))
      s.modStrm b fun y => { y with pinned := tput y.pinned l.1 true, landCopy := tput y.landCopy l.1 (memPutList [] 0 bs) }
    else s) s

/-- PROD moves to v. -/
def State.setProd (b v : Nat) (s : State) : State :=
  let s := s.modStrm b fun t =>
    { t with prod := v, prodHist := (s.now, v) :: (t.prodHist.takeWhile (fun h => s.now < h.1 + 400) ++
                                      (t.prodHist.dropWhile (fun h => s.now < h.1 + 400)).take 1) }
  (s.pinLandings b false).lowUpdate b

def State.prodRefuse (b : Nat) (s : State) : State := s.modStrm b fun t => { t with prodRefused := true }

/-- A value of BENCH_STRM_PROD acts (R157); none is a _HI write without a held _LO. A marked end does not keep PROD from
moving past it (log 91). -/
def State.prodWrite (b : Nat) (v : Option Nat) (s : State) : State :=
  let t := (s.bench b).strm
  match v with
  | none => s.prodRefuse b
  | some p =>
    if !t.cfg.hostFed || t.cfg.fmt == 0 || decide (p < t.prod) || decide (t.limit < p) || p % max 1 t.recSize != 0 then
      s.prodRefuse b
    else s.setProd b p

/-- REWIND (R158). -/
def State.rewind (b : Nat) (s : State) : State :=
  let t := (s.bench b).strm
  if !t.cfg.hostFed || t.cfg.fmt == 0 || s.running b then s.prodRefuse b
  else (s.modStrm b fun t =>
    { t with prod := 0, cons := 0, chw := 0, prodHist := [], pinned := [], landCopy := [], loopOf := none, loopFill := 0,
             loopData := [], eos := false }).each (List.range 5) (fun i =>
      State.modReader i fun r => { r with prodLo := tdel r.prodLo b }) |>.lowUpdate b

/-- EOS marks the present PROD as the end of the stream (R158). -/
def State.markEos (b : Nat) (s : State) : State := (s.modStrm b fun t => { t with eos := true, eosAt := t.prod }).lowUpdate b

/-- A write of BENCH_STRM_CTRL: REWIND acts first. -/
def State.strmCtrl (b : Nat) (v : Word) (s : State) : State :=
  let s := if bit v 1 then s.rewind b else s
  if bit v 0 then s.markEos b else s

/-- A start sets CONS = POS(0), discards the read-ahead, empties the loop buffer and attaches the bench (R153, R160, R162,
R163). The SAT of its counter clears in every bench (R128). -/
def State.strmStart (b : Nat) (s : State) : State :=
  s.modStrm b fun t =>
    let p := (tget {} t.cfg.landings 0).pos
    if t.cfg.fmt = 0 then { t with discard := { t.discard with sat := false } }
    else { t with cons := p, chw := max t.chw p, loopOf := none, loopFill := 0, loopData := [], lastRec := none,
                  detached := false, aborted := false, short := false, discard := { t.discard with sat := false } }

/-- R165 holds in bench b. -/
def State.prefilled (s : State) (b : Nat) : Bool :=
  let t := (s.bench b).strm
  t.cfg.fmt = 0 || !t.cfg.hostFed || decide ((tget {} t.cfg.landings 0).pos + t.cfg.prefill ≤ t.prod)

/-- The policy of the site that holds lane l of bench b, true for ABORT_SITE: that of the site, in every bench (R170). -/
def State.policy (s : State) (b l : Nat) : Bool :=
  match s.siteOf b l with
  | some i => (s.site i).cfg.abort
  | none => false

/-- Every site on the bench has policy ABORT_SITE (R170). A bench without a site has the WAIT behaviour (log 90). -/
def State.abortPolicy (s : State) (b : Nat) : Bool :=
  let hs := s.halves b
  !hs.isEmpty && hs.all fun h => (s.site h.2).cfg.abort

/-- The bench reaches a lost record: LOST, the fault, and the bench is detached (R163). -/
def State.strmLost (b : Nat) (s : State) : State :=
  (s.modStrm b fun t => { t with lost := true, detached := true, short := false }).raise (1025 + 3 * b) false 0

/-- A short bench whose sites all have ABORT_SITE (R170). -/
def State.strmAbort (b : Nat) (s : State) : State :=
  (s.modStrm b fun t => { t with detached := true, aborted := true, short := false }).raise (1025 + 3 * b) false 0

/-- UR0 and UR1 of the sites on a short bench (R169). -/
def State.markUr (b : Nat) (s : State) : State :=
  let on0 := (s.siteOf b 0).isSome
  let on1 := (s.siteOf b 4).isSome
  s.modStrm b fun t => { t with ur0 := t.ur0 || on0, ur1 := t.ur1 || on1 }

/-! ## The landing window (R171) -/

/-- A read of BENCH_STRM_LND_DATA. -/
def State.lndRead (b : Nat) (s : State) : Word × State :=
  let t := (s.bench b).strm
  if 0x100 ≤ t.lndAddr then (0, s)
  else
    let l := t.lndAddr / 4
    let v : Word := match tfind t.cfg.landings l with
      | none => 0
      | some x =>
        match t.lndAddr % 4 with
        | 0 => wordOf x.pos 0
        | 1 => wordOf x.pos 1
        | 2 => wd x.len
        | _ => flag true 31 ||| flag x.loopBuf 30 ||| flag (tget false t.pinned l) 29
    (v, s.modStrm b fun t => if t.lndInc then { t with lndAddr := t.lndAddr + 1 } else t)

/-- BENCH_STRM_STATUS. -/
def Strm.status (t : Strm) : Word :=
  flag t.prodRefused 31 ||| flag t.badCode 30 ||| flag t.lost 29 ||| flag t.lwSeen 28 ||| flag t.eos 8 |||
    flag t.detached 7 ||| flag t.aborted 6 ||| flag t.low 5 ||| flag t.short 4 ||| flag t.ur1 1 ||| flag t.ur0 0

/-- A write of BENCH_STRM_STATUS. -/
def Strm.statusWrite (t : Strm) (v : Word) : Strm :=
  { t with prodRefused := t.prodRefused && !bit v 31, badCode := t.badCode && !bit v 30, lost := t.lost && !bit v 29,
           lwSeen := t.lwSeen && !bit v 28, ur1 := t.ur1 && !bit v 1, ur0 := t.ur0 && !bit v 0 }

end Sys2Proof.Machine
end

