-- ==== Sys2Proof/Machine/Issue.lean ====
section
/-! DEFINITION. The issue of beats: boundaries, events, illegal microwords, under-runs, horizon stalls, and what every opcode does (R14, R17 to R28, R93 to R126, R130 to R138, R150 to R170, R412). -/

namespace Sys2Proof.Machine

/-! ## Stores -/

/-- Microword a and nano-word i of a gang, from its lead bench; the stores of its benches are identical (R14). -/
def State.microAt (s : State) (g a : Nat) : BitVec 48 := tget 0 (s.bench (s.lead g)).micro a
def State.nanoAt (s : State) (g i : Nat) : BitVec 256 := tget 0 (s.bench (s.lead g)).nano i

/-- A change made in every bench of a gang. -/
def State.gangMod (g : Nat) (f : Bench → Bench) (s : State) : State := s.each (s.gangBenches g) fun b => State.modBench b f
def State.gangSeq (g : Nat) (f : Seq → Seq) (s : State) : State := s.gangMod g fun x => { x with seq := f x.seq }

/-- Operand fields (R103). -/
def argTarget (w : BitVec 48) : Nat := bitsOf (muArg w) 0 16
def argHigh (w : BitVec 48) : Nat := bitsOf (muArg w) 16 4
def argLoop (w : BitVec 48) : Nat := bitsOf (muArg w) 17 3

/-- The count of a LOOP_BEGIN (R105). -/
def State.loopCount (s : State) (g : Nat) (w : BitVec 48) : Nat :=
  if (muArg w).testBit 16 then (tget 0 (s.bench (s.lead g)).seq.lreg (bitsOf (muArg w) 0 3)).toNat else argTarget w

/-! ## Illegal microwords (R125) -/

/-- A bench of the gang would issue another address than its lead bench (R118). -/
def State.gangSplit (s : State) (g : Nat) : Bool :=
  (s.gangBenches g).any fun b => (s.bench b).seq.next != (s.bench (s.lead g)).seq.next

/-- Code of the microword at address a when it is chosen, 0 when legal. -/
def State.wordCode (s : State) (g a : Nat) : Nat :=
  if 0xFFFF < a then 7
  else if s.gangSplit g then 9
  else
    let w := s.microAt g a
    let q := (s.bench (s.lead g)).seq
    let op := muOp w
    if 0xF < op then 1
    else if muBadFlags w then 2
    else if nwBad (s.nanoAt g (muNano w)) then 3
    else if op = 6 ∧ 16 ≤ q.stack.length then 4
    else if op = 7 ∧ q.stack = [] then 5
    else if op = 3 ∧ !q.lact.getLsbD (argLoop w) then 6
    else if op = 2 ∧ s.loopCount g w = 0 then 6
    else if op = 0xB ∧ (s.gangBenches g).any (fun b =>
      (s.bench b).strm.cfg.fmt = 0 || (tfind (s.bench b).strm.cfg.landings (bitsOf (muArg w) 0 6)).isNone) then 8
    else 0

/-- The sequencer fault of a gang. -/
def State.seqFault (g code addr : Nat) (s : State) : State :=
  let s := s.gangSeq g fun q => { q with faultCode := code, faultAddr := min addr 0xFFFF, faultBeat := q.beat }
  let s := s.gangEnds g .faulted
  (s.raise (1024 + 3 * s.lead g) false 0).faultTail g

/-! ## Waits (R107, R108) -/

/-- A wait is over: the next microword follows, from tick t on. -/
def State.waitOver (g t : Nat) (f : Seq → Seq) (s : State) : State :=
  ((s.gangSeq g fun q => { q with state := .issue, next := q.next + 1 }).modSeq (s.lead g) f).modGang g fun x =>
    { x with issueFrom := t }

/-- Pulses that have reached the WAIT_TRIG input by tick t release the wait: those of the first tick do. -/
def State.release' (g t : Nat) (s : State) : State :=
  let q := (s.bench (s.lead g)).seq
  match q.state, q.wtPulses with
  | .wait, (u, src) :: r =>
    if t < u then s
    else
      let srcs := src :: (r.filter fun x => x.1 = u).map (·.2)
      let later := ((r.filter fun x => x.1 ≠ u).map (·.1)).eraseDups
      let s := s.waitOver g (u + 1) fun q =>
        { q with trig := true, wtReleased := true, wtTimeout := false, wtPulses := [],
                 wtSrc := srcs.foldl (fun m n => m ||| BitVec.ofNat 192 (2 ^ n)) 0,
                 wtPrimary := BitVec.ofNat 8 (srcs.foldl min src), wtBeat := q.beat - 1 }
      later.foldl (fun s _ => s.assertEvt (s.lead g) 6) s
  | _, _ => s

/-- A WAIT_TRIG whose T beats have issued without a release ends; a pulse after its last beat finds no wait (R107, R120). -/
def State.timeout' (g : Nat) (s : State) : State :=
  let q := (s.bench (s.lead g)).seq
  if q.state = .wait ∧ q.timeout ≠ 0 ∧ q.timeout ≤ q.waited then
    let ts := (q.wtPulses.map (·.1)).eraseDups
    let s := s.waitOver g 0 fun q =>
      { q with wtTimeout := true, wtReleased := false, wtPrimary := 0xFF, wtSrc := 0, wtPulses := [] }
    ts.foldl (fun s _ => s.assertEvt (s.lead g) 6) s
  else s

/-- A GANG_SYNC whose epoch has come ends. -/
def State.syncOver (g : Nat) (s : State) : State :=
  let q := (s.bench (s.lead g)).seq
  if q.state = .sync ∧ 256 * q.syncEpoch ≤ s.grid then s.waitOver g 0 id else s

/-- The waits of a gang as they stand on a tick on which it could issue. A pulse on the tick of the last of the T beats of a
WAIT_TRIG releases it (log 93). -/
def State.settleWait (g : Nat) (s : State) : State :=
  let last := ((s.gang g).lastIssue).getD 0
  let q := (s.bench (s.lead g)).seq
  let t := if q.timeout ≠ 0 ∧ q.timeout ≤ q.waited then last else s.now - 1
  ((s.release' g t).timeout' g).syncOver g

/-! ## Boundaries (R119 to R123) -/

/-- What issues next: the address, whether its microword is newly chosen, and the number of beats with which a RETURN resumes
a WAIT_BEATS. -/
structure Pick where
  addr : Nat
  fresh : Bool := true
  resume : Nat := 0

/-! ## Missing records (R161 to R169) -/

/-- Nano-word slots of a beat that consume a record. -/
def needs (nw : BitVec 256) (bw : Nat) : Nat := ((List.range bw).filter fun j => nwSadv nw j).length

/-- The position from which a microword consumes: that of its landing for SEG_OPEN. -/
def consFrom (w : BitVec 48) (t : Strm) : Nat :=
  if muOp w = 0xB then (tget {} t.cfg.landings (bitsOf (muArg w) 0 6)).pos else t.cons

/-- The benches of the gang that are short when a microword w consumes k records (R161, R166): a SEG_OPEN to a landing that is
not pinned finds its first record not available. One whose own beat consumes nothing issues, and the next consuming beat is judged
by PROD alone (log 110). -/
def State.shortBenches (s : State) (g k : Nat) (w : BitVec 48) (fresh : Bool) : List Nat :=
  let l := bitsOf (muArg w) 0 6
  (s.gangBenches g).filter fun b =>
    let t := (s.bench b).strm
    t.live && ((fresh && muOp w == 0xB && !tget false t.pinned l) || decide (t.availN (consFrom w t) s.now k = .short))

/-- The under-run is over: no bench is short. -/
def State.endShort (g : Nat) (s : State) : State :=
  s.each (s.gangBenches g) fun b => State.modStrm b fun t => { t with short := false }

/-- The records that the next beat of a picked microword consumes (R104, R153). -/
def State.pickNeeds (s : State) (g : Nat) (p : Pick) : Nat :=
  let w := s.microAt g p.addr
  if (!p.fresh && (muOp w == 8 || muOp w == 0xC)) || muOp w == 9 then 0
  else needs (s.nanoAt g (muNano w)) (s.gang g).cfg.bw

/-- Records of a picked microword are missing in some bench. -/
def State.pickShort (s : State) (g : Nat) (p : Pick) : Bool :=
  let k := s.pickNeeds g p
  k != 0 && !(s.shortBenches g k (s.microAt g p.addr) p.fresh).isEmpty

/-- The lowest pending and enabled event input. -/
def State.dueEvent (s : State) (g : Nat) : Option Nat :=
  let q := (s.bench (s.lead g)).seq
  if q.handler then none else (bitsSet 8 (q.evtPend &&& q.evtEn).toNat).head?

/-- Event input i is taken; ret and rem are what its stack entry holds (R121, R122). An under-run in progress ends: a handler
that finds the record still missing under-runs again (R167). -/
def State.takeEvent (g i ret rem : Nat) (s : State) : State :=
  let l := s.lead g
  let s := (s.endShort g).modSeq l fun q => { q with
    evtPend := q.evtPend &&& ~~~(BitVec.ofNat 8 (2 ^ i)), gen0 := if i = 6 then none else q.gen0 }
  let vec := tget 0 (s.bench l).seq.evtVec i
  s.each (s.gangBenches g) fun b s =>
    let c := (s.bench b).seq.evtcnt
    (s.modSeq b fun q => { q with
      stack := { ret := ret, handler := true, rem := rem } :: q.stack, handler := true, evtcnt := c.add 1, next := vec,
      rem := 0, resume := 0, state := if q.state = .gated then .gated else .issue }).gen1 b (c.rose (c.add 1))

/-- A microword chosen at a boundary: it issues, or is illegal. -/
def State.chooseWord (g a resume : Nat) (s : State) : Option Pick × State :=
  let c := s.wordCode g a
  if c ≠ 0 then (none, s.seqFault g c a) else (some { addr := a, resume := resume }, s)

/-- A beat of the microword in progress: its address is compared as on every issue tick (R118). -/
def State.goOn (g : Nat) (p : Pick) (s : State) : Option Pick × State :=
  if s.gangSplit g then (none, s.seqFault g 9 p.addr) else (some p, s)

/-- What the gang does on a tick on which it could issue: none when a stop or an illegal microword ends its issue. A stop in an
under-run takes effect at the next keep-alive beat: while records are missing that beat issues first, no event is taken, and
the frozen microword issues no more (R123, R168); SHORT then stays 1 through DRAIN (log 111). Where a trigger pulse and an
enabled event fall on one tick of a WAIT_TRIG, the pulse releases the wait first, and the event returns to the microword after it
(log 92). -/
def State.pick (g : Nat) (s : State) : Option Pick × State :=
  let q := (s.bench (s.lead g)).seq
  let holding := q.state == .wait || q.state == .sync
  let cont : Pick := { addr := q.next, fresh := q.rem == 0, resume := q.resume }
  if (s.gang g).stopReq && q.state == .keepalive then
    if s.pickShort g cont then s.goOn g cont else (none, s.setRun g .drain)
  else if s.atBoundary g then
    if (s.gang g).stopReq then (none, s.setRun g .drain)
    else match s.dueEvent g with
      | some i =>
        let s := s.release' g s.now
        let q := (s.bench (s.lead g)).seq
        if 16 ≤ q.stack.length then (none, s.seqFault g 4 q.next)
        else
          let s := s.takeEvent g i q.next (if q.state = .wait ∨ q.state = .sync then 0 else if 0 < q.rem then q.rem else
            q.resume)
          s.chooseWord g (s.bench (s.lead g)).seq.next 0
      | none =>
        if holding || decide (0 < q.rem) then s.goOn g { addr := q.next, fresh := false }
        else s.chooseWord g q.next q.resume
  else s.goOn g cont

/-! ## Pin codes (R101, R102, R144, R151 to R153) -/

/-- What a lane needs to resolve a pin code. -/
structure LaneEnv where
  snap : Snap
  map : Word
  src : Nat
  d : Word
  db : Word
  prev : Act
  t : LaneT
  lastData : Bool

/-- A pin code other than 0xC and 0xD. -/
def LaneEnv.act (e : LaneEnv) (code : Nat) : Act :=
  match code with
  | 0 => .drive false
  | 1 => .drive true
  | 2 => .drive (mapBit e.map e.snap)
  | 3 => .drive (!mapBit e.map e.snap)
  | 4 => .cmp false
  | 5 => .cmp true
  | 6 => .cmpZ
  | 7 => .cmp (expBit e.map e.snap e.src e.d e.db)
  | 8 => .cmp (!expBit e.map e.snap e.src e.d e.db)
  | 9 => .mask
  | 11 => .sample
  | 14 => .drive (if e.t.format = 0 then !e.lastData else e.t.format != 2)
  | 15 => e.prev
  | _ => .off

/-- Any pin code, with the record that serves lane l in format fmt; true where the record holds 0xC or 0xD (R152). -/
def LaneEnv.resolve (e : LaneEnv) (fmt l : Nat) (r : Option Word) (code : Nat) : Act × Bool :=
  if code ≠ 12 ∧ code ≠ 13 then (e.act code, false)
  else match r with
    | none => (if code = 12 then .off else .streamMask, false)
    | some w =>
      if fmt = 1 then
        let d := bit w (2 * l)
        (if code = 12 then .drive d else if bit w (2 * l + 1) then .streamMask else .cmp d, false)
      else
        let k := fld w (4 * l) 4
        if k = 12 ∨ k = 13 then (.off, true) else (e.act k, false)

/-- What the beat of one bench needs beside the bench itself. -/
structure BeatEnv where
  nw : BitVec 256
  /-- APG operations and stream consumption take place (R104, R131, R153). -/
  ops : Bool
  bw : Nat
  /-- Starts and periods of the vectors. -/
  times : List (Nat × Nat)
  /-- The APG map words in force on the beat's vectors, by lane. -/
  map : Nat → Word

/-- The actions of the lanes of one slot, and whether a record held a bad code. -/
def Bench.slotLanes (x : Bench) (e : BeatEnv) (j : Nat) (r : Option Word) (sn : Snap) : List (LaneVec × Bool) :=
  let n := (x.tmg.slot (nwSlot e.nw j)).getD 0
  let io := tget 0 x.seq.iomask (nwIomask e.nw)
  (List.range 8).map fun l =>
    let c : Chan := tget {} x.chans l
    let t := laneT x.tmg.lib n l
    let env : LaneEnv := { snap := sn, map := e.map l, src := nwExpSrc e.nw, d := x.apg.regs.d, db := x.apg.regs.db,
                           prev := c.lastAct, t := t, lastData := c.lastData }
    let (a, bad) := env.resolve x.strm.cfg.fmt l r (nwCode e.nw j l)
    ({ act := a, iomasked := nwIomask e.nw != 0 && io.getLsbD l, t := t, apgMap := e.map l }, bad)

/-- The issue side of a channel after a vector (R75, R102). What 0xF repeats is the action before IOMASK: a compare that was
masked by IOMASK is repeated as a compare (log 88). -/
def Chan.after (c : Chan) (a : Act) : Chan :=
  { c with lastAct := a, lastData := match a with
    | .drive d => d
    | _ => c.lastData }

/-- The vectors of one bench from slot j on, slot by slot (R130 steps 4 and 5, R137, R153). Those of a keep-alive beat count as the
lane's previous vectors like any others (R102; log 112). -/
def Bench.playSlots (hbm : Nat → Byte) (e : BeatEnv) : Nat → List (Nat × Nat) → Bench → ApgDone →
    List Vec × Bench × ApgDone
  | _, [], x, n => ([], x, n)
  | j, (t, p) :: r, x, n =>
    let x := if e.ops && nwSadv e.nw j && x.strm.live then { x with strm := x.strm.consume hbm } else x
    let sn := x.apg.snap
    let rv := if x.strm.live then x.strm.lastRec else none
    let ls := x.slotLanes e j rv sn
    let x := { x with
      strm := { x.strm with badCode := x.strm.badCode || ls.any (·.2) },
      chans := (List.range 8).foldl (fun t l => tmod {} t l fun c => c.after (ls.getD l ({}, false)).1.act) x.chans }
    let step := e.ops && (r.isEmpty || (nwApg e.nw).testBit 32)
    let (regs, n) := if step then apgApply (nwApg e.nw) x.apg.regs n else (x.apg.regs, n)
    let (vs, x, n) := Bench.playSlots hbm e (j + 1) r { x with apg := { x.apg with regs := regs } } n
    ({ slot := j, start := t, period := p, lanes := ls.map (·.1), snap := sn } :: vs, x, n)

/-- The beat of one bench (R130): preset, CLD, vectors with their operations, flags. -/
def Bench.play (x : Bench) (hbm : Nat → Byte) (e : BeatEnv) (preset : Option Nat) : List Vec × Bench :=
  let x := match preset with
    | some p => { x with apg := x.apg.preset p }
    | none => x
  let x := if e.ops && (nwApg e.nw).testBit 41 then
      { x with apg := { x.apg with regs := { x.apg.regs with c := wd (bitsOf (nwApg e.nw) 33 8) } } } else x
  let (vs, x, n) := Bench.playSlots hbm e 0 e.times x {}
  (vs, if e.ops then { x with apg := x.apg.flags n } else x)

/-! ## One beat of a gang -/

/-- A beat as its microword or the under-run gives it. -/
structure BeatSpec where
  addr : Nat
  nano : Nat
  ops : Bool
  guard : Bool := false
  /-- First beat of a microword with CUT. -/
  cut : Bool := false
  mark : Bool := false
  period : Bool := false
  preset : Option Nat := none
  pspi : Option Nat := none
  event : Option (BitVec 20) := none

/-- The APG map word in force on a beat of bench b: the newest item of the parameter memory that travels before it or with
it, else the stored word. -/
def State.mapFor (s : State) (b : Nat) (items : List (Nat × Word)) (l : Nat) : Word :=
  let off := 0x100 * l + 0x80
  let all := (s.bench b).fifo.flatMap (·.items) ++ items
  match (all.filter fun i => i.1 = off).getLast? with
  | some i => i.2 &&& laneMask l 0x80
  | none => (s.lane b l).apgMap

/-- Starts and periods of a beat's vectors from instant t. -/
def vecTimes (t : Nat) : List Nat → List (Nat × Nat)
  | [] => []
  | p :: r => (t, p) :: vecTimes (t + p) r

/-- One bench's part of a beat. -/
def State.benchBeat (e : BeatSpec) (n bw t0 : Nat) (moved : Bool) (cuts : List (Word × Word)) (b : Nat) (s : State) :
    State :=
  let x := s.bench b
  let nw := tget 0 x.nano e.nano
  let items := (cuts.filter fun i => itBench i.1 = b).map fun i => (itOff i.1, i.2)
  let ps := (List.range bw).map fun j => libPeriod x.tmg.lib ((x.tmg.slot (nwSlot nw j)).getD 0)
  let times := vecTimes t0 ps
  let (vs, y) := x.play s.hbmAt { nw := nw, ops := e.ops, bw := bw, times := times, map := s.mapFor b items } e.preset
  let beat : Beat :=
    { num := n, guard := e.guard, gsel := nwGsel nw, mark := if e.mark then some (BitVec.ofNat 8 (nwMarker nw)) else none,
      period := e.period, pspi := e.pspi, event := e.event, captEn := nwCaptEn nw, flagClr := nwFlagClr nw, items := items,
      vecs := vs }
  let fifo := y.fifo ++ [beat]
  let q := { y.seq with
    beat := (y.seq.beat + 1) % 2 ^ 64, pc := e.addr, underflow := y.seq.underflow || moved,
    maxOcc := max y.seq.maxOcc fifo.length }
  (s.modBench b fun _ => { y with fifo := fifo, nextT := t0 + ps.foldl (· + ·) 0, seq := q }).lowUpdate b

/-- The gang issues one beat now: cuts land, the flags clear, and every bench resolves its vectors (R17, R20, R114, R130,
R412). -/
def State.playBeat (g : Nat) (e : BeatSpec) (s : State) : State :=
  let n := (s.bench (s.lead g)).seq.beat
  let (cuts, s) := s.landCuts g n e.cut
  let s := if nwFlagClr (s.nanoAt g e.nano) then s.clearFlags g n else s
  let x := s.bench (s.lead g)
  let late := (s.now + 512) * 5000
  let moved := x.fifo.isEmpty && decide (x.nextT < late)
  let t0 := if moved then late else x.nextT
  let s := s.each (s.gangBenches g) (State.benchBeat e n (s.gang g).cfg.bw t0 moved cuts)
  s.modGang g fun x => { x with lastIssue := some s.now, chosen := false }

/-! ## Under-runs (R166 to R170) -/

/-- A keep-alive beat for the benches of a list that are short. -/
def State.keepalive (g : Nat) (short : List Nat) (s : State) : State :=
  let n := (s.bench (s.lead g)).seq.beat
  let new := short.filter fun b => !(s.bench b).strm.short
  let s := s.setRun g .keepalive
  let s := s.each (s.gangBenches g) fun b => State.modStrm b fun t => { t with short := short.contains b }
  let s := s.each new fun b s => (s.markUr b).noticeTo (s.benchOwner b) 0x03 b n 0
  let s := if new = [] then s else s.assertEvt (s.lead g) 3
  let s := s.each short fun b s =>
    let c := (s.bench b).seq.urBeats
    (s.modSeq b fun q => { q with urBeats := c.add 1 }).gen1 b (c.rose (c.add 1))
  let s := s.playBeat g { addr := (s.bench (s.lead g)).seq.pc, nano := (s.bench (s.lead g)).seq.kaNano, ops := false }
  if (s.gang g).stopReq then s.setRun g .drain else s

/-! ## Opcodes (R103 to R109) -/

/-- First-beat effects of a newly chosen microword on the sequencer of one bench, next included (R103 to R108). taken is the
outcome of a JUMP_IF, count that of a LOOP_BEGIN, epoch the target of a GANG_SYNC. -/
def Seq.begin (q : Seq) (a : Nat) (w : BitVec 48) (taken : Bool) (count epoch resume : Nat) : Seq :=
  let k := argLoop w
  let kb := BitVec.ofNat 8 (2 ^ k)
  let q := { q with next := a + 1, rem := 0, resume := 0, state := .issue }
  match muOp w with
  | 0x1 => { q with rem := muArg w, next := if muArg w = 0 then a + 1 else a }
  | 0x2 => { q with lcnt := tput q.lcnt k (wd count), lact := q.lact ||| kb, lstart := tput q.lstart k (a + 1) }
  | 0x3 =>
    let v := tget 0 q.lcnt k - 1
    if v = 0 then { q with lcnt := tput q.lcnt k v, lact := q.lact &&& ~~~kb }
    else { q with lcnt := tput q.lcnt k v, next := tget 0 q.lstart k }
  | 0x4 => { q with next := argTarget w }
  | 0x5 => if taken then { q with next := argTarget w } else q
  | 0x6 => { q with stack := { ret := a + 1 } :: q.stack, next := argTarget w }
  | 0x7 =>
    match q.stack with
    | [] => q
    | e :: r => { q with stack := r, next := e.ret, resume := e.rem, handler := q.handler && !e.handler }
  | 0x8 => { q with state := .wait, next := a, trig := false, waited := 1, timeout := muArg w, wtPulses := [] }
  | 0x9 =>
    let n := if resume = 0 then muArg w else resume - 1
    { q with rem := n, next := if n = 0 then a + 1 else a }
  | 0xA => { q with state := .drain }
  | 0xC => { q with state := .sync, next := a, syncEpoch := epoch }
  | _ => q

/-- A firing on the tick of the first beat of a WAIT_TRIG reaches it: it did not fire before that beat, so it releases the wait
and asserts no event input 6 (R107, R120). -/
def Seq.catch (t : Nat) (q : Seq) : Seq :=
  match q.gen0 with
  | some k =>
    if k.tick = t then
      { q with
        gen0 := none, wtPulses := k.srcs.map fun n => (t, n),
        evtPend := if k.pend then q.evtPend else q.evtPend &&& ~~~(64 : BitVec 8),
        evtMerged := if k.merged then q.evtMerged else q.evtMerged &&& ~~~(64 : BitVec 8) }
    else q
  | none => q

/-- Effects of a further beat of a microword in progress. -/
def Seq.more (q : Seq) : Seq :=
  match q.state with
  | .wait => { q with waited := q.waited + 1 }
  | .sync => q
  | _ => { q with state := .issue, rem := q.rem - 1, next := if q.rem = 1 then q.next + 1 else q.next }

/-- The target epoch of a GANG_SYNC whose first beat issues now (R108). -/
def State.syncTarget (s : State) (w : BitVec 48) : Nat :=
  let m := max 1 (muArg w)
  m * (s.clk.epoch / m + 1)

/-- The beat of a picked microword issues (R103 to R109, R117, R161). -/
def State.issueWord (g : Nat) (p : Pick) (s : State) : State :=
  let w := s.microAt g p.addr
  let l := s.lead g
  let op := muOp w
  let n := (s.bench l).seq.beat
  let hold := !p.fresh && (op == 8 || op == 0xC)
  let s := s.endShort g
  let s := if p.fresh && op == 0xB then s.each (s.gangBenches g) (State.segOpenAt (bitsOf (muArg w) 0 6)) else s
  let s := if p.fresh && op == 5 && nwFlagClr (s.nanoAt g (muNano w)) then s.clearFlags g n else s
  let taken := p.fresh && op == 5 && s.condition g n (argHigh w)
  let count := s.loopCount g w
  let target := s.syncTarget w
  let pframe := nwPframe (s.nanoAt g (muNano w))
  let s := s.gangSeq g fun q => if p.fresh then q.begin p.addr w taken count target p.resume else q.more
  let s := if p.fresh && op == 8 then s.modSeq l (Seq.catch s.now) else s
  s.playBeat g
    { addr := p.addr, nano := muNano w, ops := !hold && op != 9, guard := muGuard w, cut := p.fresh && muCut w,
      mark := p.fresh && muMark w, period := p.fresh && muPeriod w,
      preset := if op = 0xE then some (argHigh w) else none,
      pspi := if op = 0xD then some (if (muArg w).testBit 6 then pframe else bitsOf (muArg w) 0 6) else none,
      event := if op = 0xF then some (BitVec.ofNat 20 (muArg w)) else none }

/-- The results of beats up to n − 48 have returned when beat n is due (R22). -/
def State.horizonOk (s : State) (g : Nat) : Bool :=
  let n := (s.bench (s.lead g)).seq.beat
  decide (n < 48) || decide (n - 48 < (s.gang g).returned)

/-- A picked microword whose records are there: a fail-conditional JUMP_IF whose results are outstanding stalls, and any other
issues (R22, R123). -/
def State.meetHorizon (g : Nat) (p : Pick) (s : State) : State :=
  let w := s.microAt g p.addr
  if p.fresh && muOp w == 5 && condFail (argHigh w) && !s.horizonOk g then
    ((s.endShort g).gangSeq g fun q => { q with state := .hstall, next := p.addr, resume := p.resume }).modGang g fun x =>
      { x with chosen := true }
  else s.issueWord g p

/-- A picked microword plays: lost records and ABORT_SITE benches detach, short benches make the gang issue a keep-alive beat,
and otherwise its beat issues, or stalls at the horizon (R22, R163, R166, R170). While records are missing the gang issues
keep-alive beats whatever results are outstanding (log 109). On a tick with a lost record and no short bench no beat issues. After
a stop in an under-run the frozen microword issues no more (R168). -/
def State.playPick (g : Nat) (p : Pick) (s : State) : State :=
  let w := s.microAt g p.addr
  let k := s.pickNeeds g p
  let stopped := (s.gang g).stopReq && s.gangState g == .keepalive
  let frozen (s : State) : State := s.gangSeq g fun q =>
    { q with next := p.addr, resume := p.resume, state := if p.fresh || q.state != .wait then q.state else .issue }
  if k = 0 then s.meetHorizon g p
  else
    let lost := (s.gangBenches g).filter fun b =>
      let t := (s.bench b).strm
      t.live && decide (t.availN (consFrom w t) s.now k = .lost)
    let abort := (s.shortBenches g k w p.fresh).filter s.abortPolicy
    let s := s.each lost State.strmLost
    let s := s.each abort State.strmAbort
    if !(s.gangState g).running then s
    else
      let short := s.shortBenches g k w p.fresh
      if short ≠ [] then (frozen s).keepalive g short
      else if lost ≠ [] then (frozen s).modGang g fun x => { x with chosen := true, lastIssue := some s.now }
      else if stopped then s.setRun g .drain
      else s.meetHorizon g p

/-! ## The commands -/

/-- The tick on which the gang's next beat can issue, back-pressure apart (R17). -/
def State.issueTick (s : State) (g : Nat) : Nat :=
  let x := s.gang g
  max (max s.now x.issueFrom) (match x.lastIssue with
    | some t => t + 1
    | none => 0)

/-- The gang is in a state in which it issues, and nothing holds it. -/
def State.canIssue (s : State) (g : Nat) : Bool :=
  let q := s.gangState g
  (q == .issue || q == .wait || q == .sync || q == .keepalive) && !s.fifoFull g && s.clk.pllLock

/-- The gang makes its choice and plays it, when what it chooses satisfies a test of address and newness; else the state is
unchanged. A stop or an illegal microword acts whatever the test. -/
def State.issueIf (g : Nat) (want : State → Pick → Bool) (s : State) : State :=
  if !s.canIssue g then s
  else
    let t := (s.advanceTo (s.issueTick g)).settleWait g
    match t.pick g with
    | (none, t) => t
    | (some p, t) => if want t p then t.playPick g p else s

/-- An opcode's command: the next beat is one of a microword with that opcode. -/
def State.issueOp (g op : Nat) (s : State) : State := s.issueIf g fun t p => muOp (t.microAt g p.addr) == op

/-- KEEPALIVE_BEAT: records of the microword that is due are missing. -/
def State.keepaliveBeat (g : Nat) (s : State) : State := s.issueIf g fun t p => t.pickShort g p

/-- UNDERRUN_RESUME: the frozen microword issues. -/
def State.underrunResume (g : Nat) (s : State) : State :=
  let frozen := (s.bench (s.lead g)).seq.next
  if s.gangState g = .keepalive then s.issueIf g fun t p => p.addr == frozen && !t.pickShort g p else s

/-- HORIZON_STALL_END: the stalled JUMP_IF issues, its address compared as on every issue tick (R22, R118). -/
def State.stallEnd (g : Nat) (s : State) : State :=
  if s.gangState g = .hstall ∧ s.horizonOk g ∧ !s.fifoFull g ∧ s.clk.pllLock then
    let t := s.advanceTo (s.issueTick g)
    let q := (t.bench (t.lead g)).seq
    match t.goOn g { addr := q.next, resume := q.resume } with
    | (none, t) => t
    | (some p, t) => t.playPick g p
  else s

/-- WAIT_TRIG_RELEASE: a pulse that has reached the input, or the first on its way there, releases the wait. -/
def State.waitRelease (g : Nat) (s : State) : State :=
  let q := (s.bench (s.lead g)).seq
  if q.state ≠ .wait then s
  else
    let due := (s.trigx.inflight.filter fun p => p.2.1 = s.lead g).map (·.1)
    let s := match q.wtPulses, due.min? with
      | [], some t => s.advanceTo t
      | _, _ => s
    s.release' g (if q.timeout ≠ 0 ∧ q.timeout ≤ q.waited then ((s.gang g).lastIssue).getD 0 else s.now)

/-- WAIT_TRIG_TIMEOUT: no pulse came by the last of T beats. -/
def State.waitTimeout (g : Nat) (s : State) : State :=
  let q := (s.bench (s.lead g)).seq
  let last := ((s.gang g).lastIssue).getD 0
  if q.wtPulses.any fun p => p.1 ≤ last then s else s.timeout' g

/-- GANG_SYNC_RELEASE: the target epoch comes. -/
def State.syncRelease (g : Nat) (s : State) : State :=
  let q := (s.bench (s.lead g)).seq
  if q.state = .sync then (s.toEpoch q.syncEpoch).syncOver g else s

/-! ## Starts (R25, R57, R87, R126, R131, R160) -/

/-- The ridgepole receives a start of a gang at epoch e. What a run that faulted has left in the FIFO, at the pins and in the fail
pipeline is dropped, and its open log entry with it (log 19). -/
def State.arm (g e : Nat) (s : State) : State :=
  let s := s.gangMod g fun x => { x with
    seq := { x.seq with
      state := .armed, stack := [], handler := false, lact := 0, trig := false, rem := 0, resume := 0, beat := 0,
      hstall := {}, bpress := {}, evtcnt := {}, urBeats := { x.seq.urBeats with sat := false }, evtPend := 0, evtMerged := 0,
      wtPulses := [], maxOcc := 0, faultCode := 0, faultAddr := 0, faultBeat := 0 },
    apg := { x.apg.preset 0 with ax := false, ay := false },
    fifo := [], flight := [] }
  let s := s.each (s.gangBenches g) State.strmStart
  let s := s.failStart g
  let s := s.each (s.sitesOfGang g) fun i => State.modSite i fun x => { x with recCnt := 0 }
  let s := (s.sitesOfGang g).foldl (fun s i => (s.enginesOf i).foldl (fun s k => s.raeStart k) s) s
  s.modGang g fun x => { x with
    startEpoch := e, stopReq := false, stopSafe := false, lastIssue := none, issueFrom := 0, returned := 0, clrBeat := 0,
    firstFail := [], chosen := false }

/-- GANG_START: at the start epoch beat 0 issues from the entry address, and the channels take their levels. -/
def State.gangStart (g : Nat) (s : State) : State :=
  if s.gangState g ≠ .armed ∨ !s.clk.pllLock then s
  else
    let s := s.toEpoch (s.gang g).startEpoch
    let t0 := 5000 * s.now
    let entry := (s.bench (s.lead g)).seq.entry
    let s := s.gangMod g fun x => { x with
      seq := { x.seq with state := .issue, next := entry }, nextT := t0 + 512 * 5000, tl := t0,
      chans := x.chans.map fun c => (c.1, { c.2 with
        dskRun := c.2.dsk, lastAct := .off, lastData := false, drvOn := false, drvLevel := false }) }
    let s := s.each (s.gangBenches g) fun b s => s.each (List.range 8) fun l s => (s.leaveSafe b l).modChan b l fun c =>
      { c with loadOn := !c.inSafe && (s.lane b l).loadEn && !(s.lane b l).pmu && !(s.lane b l).hv }
    let s := s.each (s.gangBenches g) State.lowUpdate
    match s.chooseWord g entry 0 with
    | (none, s) => s
    | (some p, s) => s.playPick g p

end Sys2Proof.Machine
end

