-- ==== Sys2Proof/Machine/Beat.lean ====
section
/-! DEFINITION. Beats at the pins: what happens when the first vector of a beat starts its cycle (R18, R21, R75, R76, R85, R96, R261). -/

namespace Sys2Proof.Machine

/-! ## Edges (R75, R76, R77, R85) -/

/-- Driver state and edges so far, newest first; load tells that the active load is enabled, so that it turns on and off at
the edges that turn the driver off and on (R47). -/
structure Pin where
  on : Bool
  lvl : Bool
  load : Bool := false
  /-- Until this instant everything is open after a change of MODE, and no edge of the driver or the load acts (R70). -/
  openTill : Nat := 0
  edges : List (Nat × EdgeKind) := []

/-- An edge of the comparators. -/
def EdgeKind.compares : EdgeKind → Bool
  | .strobe | .winOpen | .winClose => true
  | _ => false

/-- An edge. -/
def Pin.put (p : Pin) (t : Nat) (k : EdgeKind) : Pin :=
  if !k.compares && decide (t < p.openTill) then p else { p with edges := (t, k) :: p.edges }

/-- The driver turns on or off at an edge that has been put, and with it the load. -/
def Pin.turn (p : Pin) (t : Nat) (on : Bool) : Pin :=
  if t < p.openTill then p
  else
    let q := if p.load && p.on != on then p.put t (if on then .loadOff else .loadOn) else p
    { q with on := on }

/-- The driver in a drive-class vector with data d; at0 gives the instant of an offset. -/
def Pin.drive (p : Pin) (t : LaneT) (at0 : Nat → Nat) (d : Bool) : Pin :=
  let p := if t.format = 3 then (p.put (at0 t.dOn) (.data (!d))).turn (at0 t.dOn) true
    else if t.onEn && !p.on then (p.put (at0 t.dOn) .on).turn (at0 t.dOn) true else p
  let p := { (p.put (at0 t.dData) (.data d)).turn (at0 t.dData) true with lvl := d }
  let ret := if t.format = 1 then false else if t.format = 2 then true else !d
  let p := if t.format = 0 then p else { (p.put (at0 t.dRet) (.ret ret)).turn (at0 t.dRet) true with lvl := ret }
  if t.offEn then (p.put (at0 t.dOff) .off).turn (at0 t.dOff) false else p

/-- The driver in a compare-class or idle-class vector. -/
def Pin.idle (p : Pin) (t : LaneT) (at0 : Nat → Nat) : Pin :=
  let o := at0 (if t.offEn then t.dOff else 0)
  if p.on then (p.put o .off).turn o false else p

/-- One vector of a lane: drive edges at the ball run 16,000 qps ahead, with deskew and driver delay, and compare edges with
deskew less the comparator delay (R85). held tells that the driver is held off, in PMU mode or safe state (R38, R41), odd
that the lane is the second of a differential pair (R77). -/
def Pin.vector (p : Pin) (c : Nat) (dsk : Word) (start : Nat) (x : LaneVec) (held odd : Bool) : Pin :=
  let drv (o : Nat) : Nat := start + o + fld dsk 0 14 + Config.tDrv c - 16000
  let cmp (o : Nat) : Nat := start + o + fld dsk 16 14 - Config.tCmp c
  let p := match x.act, held with
    | .drive d, false => p.drive x.t drv d
    | .drive _, true => { p with on := false }
    | _, _ => p.idle x.t drv
  if x.act.compares && !odd then
    if x.t.window then (p.put (cmp x.t.cOpen) .winOpen).put (cmp x.t.cClose) .winClose else p.put (cmp x.t.cOpen) .strobe
  else p

/-- A beat's vectors on lane l of bench b; GUY_SYNC_TRIM delays every edge (R315). -/
def State.pinBeat (b : Nat) (vs : List Vec) (l : Nat) (s : State) : State :=
  let p := s.lane b l
  let c := s.chan b l
  let odd := l % 2 == 1 && (s.lane b (l - 1)).diff
  let q := vs.foldl (fun (k : Pin) v => k.vector (8 * b + l) c.dskRun (v.start + s.guy.syncTrim.toNat) (v.lanes.getD l {}) (p.pmu || c.inSafe) odd)
    { on := c.drvOn, lvl := c.drvLevel, load := p.loadEn && !p.pmu && !p.hv && !c.inSafe,
      openTill := match c.switch with
        | some (.opened, u) => 5000 * u
        | _ => 0 }
  s.modChan b l fun c => { c with
    edges := q.edges.reverse, drvOn := q.on, drvLevel := q.lvl, loadOn := q.load && !q.on,
    undriven := c.undriven && !q.edges.any fun e => match e.2 with
      | .on | .data _ | .ret _ => true
      | _ => false }

/-! ## The instant of R96 -/

/-- The beat at the head of the FIFO of bench b reaches the pins at instant t in qps: its cut acts, and what is in force is
taken for its compares (R21, R261). -/
def State.benchPins (g t b : Nat) (s : State) : State :=
  match (s.bench b).fifo with
  | [] => s
  | beat :: r =>
    let s := s.modBench b fun x => { x with fifo := r, tl := if beat.items = [] then x.tl else t }
    let s := beat.items.foldl (fun s i => s.laneStore b (i.1 / 0x100) (i.1 % 0x100) i.2) s
    let lanes := (List.range 8).map fun l =>
      let p := s.lane b l
      ({ vch := p.vch, vcl := p.vcl, diff := p.diff, drop := (s.chan b l).inSafe } : FlightLane)
    let s := s.each (List.range 8) (State.pinBeat b beat.vecs)
    let gw := tget 0 (s.gang g).guard beat.gsel
    s.modBench b fun x => { x with flight := x.flight ++ [{ beat := beat, lanes := lanes, tl := x.tl, gw := gw }] }

/-- The MARK of a bench: its marker, its bench event and the ramps that follow it (R95, R193, R230). -/
def State.markBench (m : BitVec 8) (b : Nat) (s : State) : State :=
  ((s.modSeq b fun q => { q with marker := m }).pulse (8 + b)).monMark b

/-- Beat 0 at the pins is a start event of the units that wait for it (R202). -/
def State.beatZero (g : Nat) (s : State) : State :=
  s.each (List.range 32) fun u => State.modAcq u fun a =>
    if a.state = .waitStart ∧ a.startSrc = 1 ∧ a.startAt.isNone ∧
        (s.gangBenches g).any (fun b => b / 2 = u) then { a with startAt := some s.grid }
    else a

/-- The number of a beat's EVENT record and its code go to the owning port, with the device tick as time. -/
def State.eventRecord (g n code : Nat) (s : State) : State :=
  s.noticeTo (s.benchOwner (s.lead g)) 0x01 (s.lead g) n code

/-- VECTOR_CYCLE_START: the first vector of the gang's oldest queued beat starts its cycle. -/
def State.cycleStart (g : Nat) (s : State) : State :=
  match (s.bench (s.lead g)).fifo with
  | [] => s
  | beat :: _ =>
    let t := ((beat.vecs.head?).map (·.start)).getD 0
    let s := s.advanceTo (ceilDiv t 5000)
    let s := s.each (s.gangBenches g) (State.benchPins g t)
    let s := s.each ((s.gangBenches g).map (· / 2)).eraseDups State.unitJudge
    let s := if beat.num = 0 then s.beatZero g else s
    let s := match beat.mark with
      | some m => s.each (s.gangBenches g) (State.markBench m)
      | none => s
    let s := if beat.period then s.monPattern g else s
    let s := match beat.pspi with
      | some f => s.pspiPattern (s.lead g) f
      | none => s
    let s := match beat.event with
      | some c => s.eventRecord g beat.num c.toNat
      | none => s
    s.stopNow g

end Sys2Proof.Machine
end

