-- ==== Sys2Proof/Machine/Admit.lean ====
section
/-! DEFINITION. Admission: the checks of a structure image, in their order, with the figures they report (R14 to R16, R19, R32, R34, R164, R181, R183, R187, R194, R228, R241 to R252, R342, R378, R379, R414). -/

namespace Sys2Proof.Machine

/-- A failed check: reason, CODE, INDEX, and the figure and limit as binary32 words. -/
structure ImgFail where
  reason : Nat
  code : Nat := 0
  index : Nat := 0
  value : Word := 0
  limit : Word := 0
  deriving DecidableEq, Repr

/-- A failure of a check when its condition does not hold. -/
def failIf (bad : Bool) (f : ImgFail) : Option ImgFail := if bad then some f else none

/-- The first failure of a list of checks. -/
def firstOf {α : Type} (l : List (Option α)) : Option α := l.findSome? id

/-- A whole number as binary32. -/
def f32Nat (n : Nat) : Word := f32Round n 1

/-! ## What an image says -/

/-- The gang that holds a bench, and the partition of a bench (R16). -/
def imgGang (i : Image) (b : Nat) : Option Nat := (i.gangs.find? fun g => g.2.benches.contains b).map (·.1)
def imgPart (i : Image) (b : Nat) : Option Nat :=
  match i.gangs.find? fun g => g.2.benches.contains b with
  | some g => some g.2.partition
  | none => tfind i.benchPart b
/-- The partition of a site. -/
def imgSitePart (i : Image) (t : Nat) : Nat := (tget {} i.gangs (tget {} i.sites t).gang).partition
/-- Beat width of a bench, 1 in no gang. -/
def imgBw (i : Image) (b : Nat) : Nat := ((i.gangs.find? fun g => g.2.benches.contains b).map (·.2.bw)).getD 1
/-- The benches with a stream. -/
def imgStreams (i : Image) : Tab StreamCfg := i.streams.filter fun x => x.2.fmt != 0
/-- Loaded length of a resident stream. -/
def imgLoaded (i : Image) (b : Nat) : Nat := (tget [] i.streamData b).length
/-- The library and slot map of a bench: an image maps all eight slots of every bench (R82). -/
def imgTmg (i : Image) (b : Nat) : Tmg :=
  { lib := (tget [] i.lib b).map fun e => (e.1, e.2 &&& libMask e.1), slotLo := tget 0 i.slotLo b &&& 0x3F3F3F3F,
    slotHi := tget 0 i.slotHi b &&& 0x3F3F3F3F, mappedLo := true, mappedHi := true }
/-- The parameter block of a lane, by the words of CHANNEL at their byte offsets. -/
def imgLane (i : Image) (b l : Nat) : LaneP :=
  (levelOffs ++ [0x38, 0x3C, 0x40, 0x80]).foldl (fun p o =>
    match tfind (tget [] i.chan b) (0x100 * l + o) with
    | some v => p.set o (v &&& laneMask l o)
    | none => p) {}
/-- A bench with the library, slot map and parameter memory of the image. -/
def imgBench (i : Image) (b : Nat) : Bench :=
  { tmg := imgTmg i b, lanes := tputList [] 0 ((List.range 8).map (imgLane i b)) }

/-- The frames that the PSPI_SEND microwords of the image name, ascending (R243). -/
def imgFrames (i : Image) : List Nat :=
  let named := i.micro.flatMap fun m => m.2.filterMap fun w =>
    if muOp w = 0xD then
      some (if (muArg w).testBit 6 then nwPframe ((tget [] i.nano m.1).getD (muNano w) 0) else bitsOf (muArg w) 0 6)
    else none
  (List.range 64).filter fun f => named.contains f

/-! ## FORMAT (R241 to R243, R414) -/

/-- The section entries that the table holds. -/
def sectionsOf (c : Container) : List Section :=
  (List.range c.nsect.toNat).map fun k => c.sections.getD k { type := 0, offset := 0, length := 0 }

/-- Byte offset of the first header word that breaks R241. -/
def headerBad (c : Container) (len : Nat) : Option Nat :=
  firstOf ([if c.magic = 0x47524A46 then none else some 0x000, if fld c.fmt 16 16 = 1 then none else some 0x004,
    if c.length = len then none else some 0x010, if 1 ≤ c.nsect.toNat ∧ c.nsect.toNat ≤ 64 then none else some 0x018,
    (c.zeros.find? fun z => z.2 ≠ 0).map (·.1)] ++
   ((sectionsOf c).zipIdx.map fun e =>
      let a := 0x100 + 32 * e.2
      if e.1.flags ≠ 0 then some a else if e.1.word1 ≠ 0 then some (a + 4) else if e.1.word6 ≠ 0 then some (a + 0x18)
      else if e.1.word7 ≠ 0 then some (a + 0x1C) else none))

/-- The section types that must be present (R242). -/
def requiredTypes : List Nat := [1, 2, 3] ++ (List.range 15).map (· + 5)

/-- The first of the codes 0x01 to 0x05 that fails. -/
def formatBad (c : Container) (len : Nat) : Option ImgFail :=
  let es := (sectionsOf c).zipIdx
  let ts := (sectionsOf c).map (·.type)
  let ends (e : Section) : Nat := e.offset + e.length
  firstOf [(headerBad c len).map fun a => { reason := 2, code := 1, index := a },
   (requiredTypes.find? fun t => !ts.contains t).map fun t => { reason := 2, code := 2, index := t },
   (es.find? fun e => e.1.type = 0 || decide (0x14 < e.1.type)).map fun e => { reason := 2, code := 3, index := e.2 },
   (es.find? fun e => (ts.take e.2).contains e.1.type).map fun e => { reason := 2, code := 4, index := e.2 },
   (es.find? fun e => e.1.offset % 64 != 0 || decide (c.length < ends e.1) ||
      ((sectionsOf c).take e.2).any fun o => decide (o.offset < ends e.1) && decide (e.1.offset < ends o)).map
     fun e => { reason := 2, code := 5, index := e.2 }]

/-- The budget table holds what it must (R243). -/
def budgetBad (i : Image) : Option ImgFail :=
  let bad (kind ix : Nat) : ImgFail := { reason := 2, code := 7, index := kind * 65536 + ix }
  firstOf [((imgStreams i).find? fun x =>
      let r : BudgetStream := tget {} i.budStream x.1
      r.rc.isNone || r.br.isNone || x.2.hostFed && (r.rh.isNone || r.len.isNone)).map fun x => bad 1 x.1,
   (i.sites.find? fun x =>
      let r : BudgetSite := tget {} i.budSite x.1
      r.rf.isNone || (i.repair.any fun e => e.2.assigned && e.2.site == x.1) && r.td.isNone).map fun x => bad 2 x.1,
   ((imgFrames i).find? fun f => (tfind i.budFrame f).isNone).map fun f => bad 3 f]

/-! ## STRUCTURE (R14 to R16, R32, R194, R228, R342) -/

/-- The partition of a matrix source, none for a shared resource (R32, R193). -/
def srcPart (i : Image) (n : Nat) : Option (Option Nat) :=
  if n < 8 then none
  else if n < 72 then some (imgPart i (n - 8))
  else if n < 104 then some (some (tget {} i.acq (n - 72)).partition)
  else if n < 168 then some (some (tget {} i.monitor (n - 104)).partition)
  else none

/-- The partition of a matrix destination. -/
def dstPart (i : Image) (d : Nat) : Option (Option Nat) :=
  if d < 64 then some (imgPart i d)
  else if d < 160 then some (some (tget {} i.acq ((d - 64) % 32)).partition)
  else none

/-- A route breaks R32 or R194. -/
def routeBad (i : Image) (d n : Nat) : Bool :=
  decide (188 ≤ n) || (decide (72 ≤ n) && decide (n < 104) && decide (64 ≤ d) && decide (d < 160) &&
    decide ((d - 64) % 32 = n - 72)) ||
  match srcPart i n, dstPart i d with
  | some p, some q => p.isNone || p != q
  | _, _ => false

/-- A gang breaks R14 or R16. -/
def gangBad (i : Image) (g : Nat × GangCfg) : Option Nat :=
  if 64 ≤ g.1 ∨ (g.2.bw ≠ 1 ∧ g.2.bw ≠ 2 ∧ g.2.bw ≠ 4) ∨ g.2.benches = [] ∨ (tfind i.partPort g.2.partition).isNone then
    some ((g.2.benches.min?).getD 0)
  else g.2.benches.find? fun b => decide (64 ≤ b) || decide (1 < (g.2.benches.filter (· = b)).length) ||
    i.gangs.any fun h => h.1 != g.1 && h.2.benches.contains b

/-- A site breaks R15; of two sites that overlap, the higher-numbered one does. -/
def siteBad (i : Image) (x : Nat × SiteCfg) : Bool :=
  let lanes (c : SiteCfg) : List (Nat × Nat) := c.benches.flatMap fun b => (laneList c.lanes).map fun l => (b, l)
  decide (128 ≤ x.1) || x.2.benches.isEmpty || x.2.benches.any (fun b => imgGang i b != some x.2.gang) ||
    (x.2.lanes != .all && x.2.benches.length != 1) || decide (x.2.benches.eraseDups.length < x.2.benches.length) ||
    i.sites.any fun y => decide (y.1 < x.1) && (lanes y.2).any fun c => (lanes x.2).contains c

/-- A monitor breaks R228 or R16. -/
def monBad (i : Image) (m : Nat × MonAssign) : Bool :=
  (tfind i.partPort m.2.partition).isNone || (m.2.site.isNone && (m.2.react.getLsbD 1 || m.2.react.getLsbD 2)) ||
    imgPart i m.2.rampBench != some m.2.partition ||
    match m.2.site with
    | some t => (tfind i.sites t).isNone || imgSitePart i t != m.2.partition
    | none => false

/-- A bench that is in no partition of the image, or in another than its gang (R14, R16). -/
def benchBad (i : Image) (b : Nat) : Bool :=
  match imgPart i b with
  | none => true
  | some p => (tfind i.partPort p).isNone || ((tfind i.benchPart b).any fun q => q != p)

/-- An engine that is in no partition of the image, or serves a site of another (R16). -/
def engineBad (i : Image) (e : Nat) : Bool :=
  let c : RepairCfg := tget {} i.repair e
  match tfind i.enginePart e with
  | none => true
  | some p => (tfind i.partPort p).isNone || (c.assigned && ((tfind i.sites c.site).isNone || imgSitePart i c.site != p))

/-- STRUCTURE. A port that the lane split leaves absent owns no partition, and so is not the administrator's (R16, R263). -/
def State.structureBad (s : State) (i : Image) : Option ImgFail :=
  let at_ (n : Nat) : ImgFail := { reason := 6, index := n }
  firstOf [(i.partPort.find? fun p => decide (4 ≤ p.1) || !s.present p.2 || i.partPort.any fun q => q.1 < p.1 && q.2 = p.2).map
     fun p => at_ p.1,
   failIf (!i.partPort.any fun p => p.2 = i.adminPort) (at_ i.adminPort),
   (i.gangs.findSome? (gangBad i)).map at_,
   ((List.range 64).find? (benchBad i)).map at_,
   (i.sites.find? (siteBad i)).map fun x => at_ x.1,
   ((imgStreams i).find? fun x => (imgPart i x.1).isNone).map fun x => at_ x.1,
   ((List.range 64).find? (engineBad i)).map at_,
   (i.acq.find? fun u => (tfind i.partPort u.2.partition).isNone).map fun u => at_ u.1,
   (i.cmpPart.find? fun k => (tfind i.partPort k.2).isNone).map fun k => at_ k.1,
   (i.routes.find? fun r => decide (172 ≤ r.1) || r.2.any (routeBad i r.1)).map fun r => at_ r.1,
   (i.monitor.find? (monBad i)).map fun m => at_ m.1,
   (i.fault.cls.find? fun c => decide (1360 ≤ c.1) || decide (c.2 < defaultClass c.1) || decide (2 < c.2)).map
     fun c => at_ c.1]

/-! ## HBM_MAP (R34, R154, R156, R176, R181, R210, R414) -/

/-- Twice the share of a region's bytes in stack s. -/
def share2 (r : Region) (s : Nat) : Nat := if r.place = 2 then 1 else if r.place = s then 2 else 0

/-- The region of a partition that holds n bytes at an address. -/
def imgRegion (i : Image) (part : Option Nat) (a n : Nat) : Option Region :=
  i.regions.find? fun r => some r.partition == part && decide (r.base ≤ a) && decide (a + n ≤ r.base + r.size)

/-- Bytes of a site's bitmap: whole 2 MiB granules (R181). -/
def bmBytes (f : FailCfg) : Nat :=
  let bits := (f.xHi + 1 - f.xLo) * (f.yHi + 1 - f.yLo) * (f.zHi + 1 - f.zLo) * 2 ^ f.iok
  ceilDiv (ceilDiv bits 8) 2097152 * 2097152

/-- HBM_MAP. A region whose partition the image does not define is refused here, with code REGION and the region's index: R246
puts what R16 says under STRUCTURE, whose INDEX names no region (log 104). -/
def hbmMapBad (i : Image) : Option ImgFail :=
  let bad (code ix : Nat) : ImgFail := { reason := 7, code := code, index := ix }
  let rs := i.regions.zipIdx
  let gib : Nat := 1073741824
  let use (s : Nat) : Nat := i.regions.foldl (fun n r => n + r.size * share2 r s) 0
  let stack (s : Nat) : Option ImgFail :=
    failIf (decide (40 * gib < use s))
      { bad 2 s with value := f32Round (use s) 2, limit := f32Nat (20 * gib) }
  let total := i.fail.foldl (fun n f => n + if f.2.hasBm then bmBytes f.2 else 0) 0
  firstOf [(rs.find? fun r => r.1.base % 4096 != 0 || r.1.size % 4096 != 0 || decide (40 * gib < r.1.base + r.1.size) ||
      decide (2 < r.1.place) || (r.1.place == 2 && r.1.size % 8192 != 0) || (tfind i.partPort r.1.partition).isNone ||
      (i.regions.take r.2).any fun o => decide (o.base < r.1.base + r.1.size) && decide (r.1.base < o.base + o.size)).map
     fun r => bad 1 r.2,
   stack 0, stack 1,
   ((imgStreams i).findSome? fun x =>
      let c := x.2
      if c.base % 4096 != 0 || c.size % 4096 != 0 || decide (c.size < 65536) || decide (32 * gib < c.size) ||
          (imgRegion i (imgPart i x.1) c.base c.size).isNone then some (bad 3 x.1)
      else if !c.hostFed && decide (c.size < imgLoaded i x.1) then
        some { bad 3 x.1 with value := f32Nat (imgLoaded i x.1), limit := f32Nat c.size }
      else none),
   (i.fail.find? fun f => decide (0 < f.2.logSize) &&
      (imgRegion i (some (imgSitePart i f.1)) f.2.logBase (32 * f.2.logSize)).isNone).map fun f => bad 4 f.1,
   (i.fail.find? fun f => f.2.hasBm &&
      (imgRegion i (some (imgSitePart i f.1)) f.2.bmBase (bmBytes f.2)).isNone).map fun f => bad 5 f.1,
   failIf (decide (16 * gib < total)) { bad 6 0 with value := f32Nat total, limit := f32Nat (16 * gib) },
   (i.acq.find? fun u =>
      (imgRegion i (some u.2.partition) u.2.base (4096 * u.2.slot * u.2.nslot)).isNone).map
     fun u => bad 7 u.1]

/-! ## STORE, LANDING, HORIZON (R111, R166, R249, R250) -/

/-- Addresses that a JUMP, JUMP_IF, CALL or event can reach, and loop starts. -/
def jumpTargets (i : Image) (g : Nat) : List Nat :=
  let q : SeqCfg := tget {} i.seq g
  (List.range 8).map (fun k => tget 0 q.evtVec k) ++
    ((tget [] i.micro g).zipIdx.flatMap fun w =>
      let op := muOp w.1
      if op = 4 ∨ op = 5 ∨ op = 6 then [bitsOf (muArg w.1) 0 16] else if op = 2 then [w.2 + 1] else [])

/-- The entry points of R249. -/
def entryPoints (i : Image) (g : Nat) : List Nat :=
  (tget {} i.seq g : SeqCfg).entry :: jumpTargets i g ++
    ((tget [] i.micro g).zipIdx.flatMap fun w => if muOp w.1 = 6 then [w.2 + 1] else [])

/-- STORE. -/
def storeBad (i : Image) : Option ImgFail :=
  (i.gangs.find? fun g =>
    let m := tget [] i.micro g.1
    let n := tget [] i.nano g.1
    let q : SeqCfg := tget {} i.seq g.1
    decide (65536 < m.length) || decide (16384 < n.length) || bitsOf (n.getD q.kaNano 0).toNat 220 8 != 0 ||
      decide (16384 ≤ q.kaNano) || decide (m.length ≤ q.entry) ||
      (List.range 8).any fun k => decide (m.length ≤ tget 0 q.evtVec k)).map fun g => { reason := 8, index := g.1 }

/-- The stream of a bench breaks R250. -/
def landingBad (i : Image) (b : Nat) (c : StreamCfg) : Bool :=
  let rec0 := if c.fmt = 1 then 2 else 4
  let g := (imgGang i b).getD 64
  let m := tget [] i.micro g
  let n := tget [] i.nano g
  (tfind c.landings 0).isNone ||
  (c.landings.any fun l => decide (64 ≤ l.1) || l.2.pos % rec0 != 0 || l.2.len % rec0 != 0 || decide (262144 < l.2.len) ||
    (!c.hostFed && decide (imgLoaded i b < l.2.pos + 4096))) ||
  (jumpTargets i g).any fun a =>
    match m[a]? with
    | none => false
    | some w => (List.range (imgBw i b)).any (nwSadv (n.getD (muNano w) 0)) &&
        !(muOp w == 0xB && (tfind c.landings (bitsOf (muArg w) 0 6)).isSome)

/-- LANDING. -/
def landingsBad (i : Image) : Option ImgFail :=
  ((imgStreams i).find? fun x => landingBad i x.1 x.2).map fun x => { reason := 9, index := x.1 }

/-- Beats of a microword that the guard walk of R249 passes, none for any other opcode. -/
def guardBeats (w : BitVec 48) : Option Nat :=
  match muOp w with
  | 0 => some 1
  | 1 | 9 => some (muArg w + 1)
  | _ => none

/-- The walk of R249 back from address x − 1: whether the guard is present, and the beats counted. -/
def guardWalk (m : List (BitVec 48)) (eps : List Nat) : Nat → Nat → Bool × Nat
  | 0, n => (false, n)
  | x + 1, n =>
    match guardBeats (m.getD x 0) with
    | none => (false, n)
    | some k => if 47 ≤ n + k then (true, n + k) else if eps.contains x then (false, n + k) else guardWalk m eps x (n + k)

/-- HORIZON. -/
def horizonBad (i : Image) : Option ImgFail :=
  i.gangs.findSome? fun g =>
    let m := tget [] i.micro g.1
    let eps := entryPoints i g.1
    m.zipIdx.findSome? fun w =>
      if muOp w.1 = 5 ∧ condFail (bitsOf (muArg w.1) 16 4) then
        let r := guardWalk m eps w.2 0
        failIf (eps.contains w.2 || !r.1) { reason := 0xA, index := w.2, value := f32Nat r.2, limit := f32Nat 47 }
      else none

/-! ## TIMING and LEVEL (R19, R40, R43, R66, R78 to R80, R139, R143, R148) -/

/-- TIMING. -/
def timingBad (i : Image) : Option ImgFail :=
  (List.range 64).findSome? fun b =>
    let c := mapCode (imgBench i b) (imgBw i b)
    let first := ((imgGang i b).bind fun g => (tget {} i.gangs g : GangCfg).benches.head?).getD b
    if c ≠ 0 then some { reason := 0xB, code := c, index := b }
    else failIf ((imgTmg i first).periods != (imgTmg i b).periods) { reason := 0xB, code := 0xC, index := b }

/-- The code of R149 that a gang's APG content breaks, 0 for none. -/
def apgCode (a : ApgCfg) : Nat :=
  firstCode [a.regs.code, if a.clut.all fun e => e.2.toNat ≤ 0xFFF then 0 else 1,
    if a.presets.all fun e => e.2.toNat < 2 ^ apgWidth.getD (e.1 % 16) 32 then 0 else 1,
    if a.presets.all fun e => e.1 < 256 && e.1 % 16 < 10 then 0 else 5]

/-- LEVEL. -/
def levelBad (i : Image) : Option ImgFail :=
  let lane (b : Nat) : Nat := firstCode ((List.range 8).map fun l =>
    laneLegal (imgLane i b l) (imgLane i b (otherLane l)) (imgTmg i b) l)
  firstOf [(List.range 64).findSome? fun b => failIf (lane b != 0) { reason := 0xC, code := lane b, index := b },
   i.gangs.findSome? fun g =>
     let c := apgCode (tget {} i.apg g.1)
     failIf (c != 0) { reason := 0xC, code := c, index := (g.2.benches.min?).getD 0 }]

/-! ## HBM_BW, PREFILL, HOST_RATE (R164, R247, R248) -/

/-- Twice the reserved load of stack s in bytes per second. -/
def load2 (i : Image) (s : Nat) : Nat :=
  let share (r : Option Region) : Nat := (r.map fun x => share2 x s).getD 0
  let streams := (imgStreams i).map fun x =>
    let r : BudgetStream := tget {} i.budStream x.1
    share (imgRegion i (imgPart i x.1) x.2.base x.2.size) * (r.rc.getD 0 + if x.2.hostFed then r.rh.getD 0 else 0)
  let sites := i.sites.map fun x =>
    let f : FailCfg := tget {} i.fail x.1
    let p := some (imgSitePart i x.1)
    let log := if 0 < f.logSize then share (imgRegion i p f.logBase (32 * f.logSize)) else 0
    let bm := if f.hasBm then share (imgRegion i p f.bmBase (bmBytes f)) else 0
    max log bm * ((tget {} i.budSite x.1 : BudgetSite).rf.getD 0)
  let units := i.acq.map fun u =>
    share (imgRegion i (some u.2.partition) u.2.base (4096 * u.2.slot * u.2.nslot)) * u.2.rate * 64000
  (streams ++ sites ++ units).foldl (· + ·) 0

/-- HBM_BW. -/
def bwBad (i : Image) : Option ImgFail :=
  (List.range 2).findSome? fun s =>
    failIf (decide (1310400000000 < load2 i s))
      { reason := 0xD, index := s, value := f32Round (load2 i s) 2000000000, limit := f32Round 6552 10 }

/-- The prefill P of R164, a multiple of 64 bytes. -/
def prefillOf (r : BudgetStream) : Nat :=
  let rc := r.rc.getD 0
  let rh := r.rh.getD 0
  let num := (if rc ≤ rh then 0 else r.len.getD 0 * (rc - rh) * 1000000000) + rc * rc * r.d
  if rc = 0 then 0 else ceilDiv num (rc * 1000000000 * 64) * 64

/-- PREFILL. -/
def prefillBad (i : Image) : Option ImgFail :=
  (imgStreams i).findSome? fun x =>
    let r : BudgetStream := tget {} i.budStream x.1
    let need := prefillOf r + x.2.retain
    let br := r.br.getD 0
    if x.2.hostFed && decide (x.2.size < need) then
      some { reason := 0xE, index := x.1, value := f32Nat need, limit := f32Nat x.2.size }
    else failIf (decide (x.2.retain < br)) { reason := 0xE, index := x.1, value := f32Nat br, limit := f32Nat x.2.retain }

/-- Bytes per second of one lane at a link speed. -/
def laneRate : Nat → Nat
  | 5 => 3940000000 | 4 => 1970000000 | 3 => 985000000 | 2 => 500000000 | 1 => 250000000 | _ => 0

/-- HOST_RATE, with the links as they are trained now. -/
def State.hostRateBad (s : State) (i : Image) : Option ImgFail :=
  (List.range 4).findSome? fun p =>
    let ps := (i.partPort.filter fun x => x.2 = p).map (·.1)
    let need := ((imgStreams i).filter fun x => x.2.hostFed && ps.any fun q => imgPart i x.1 = some q).foldl
      (fun n x => n + (tget {} i.budStream x.1 : BudgetStream).rh.getD 0) 0
    let cap := if (s.port p).linkUp then (s.port p).width.toNat * laneRate (s.port p).speed.toNat else 0
    failIf (decide (cap < need))
      { reason := 0xF, index := p, value := f32Round need 1000000000, limit := f32Round cap 1000000000 }

/-! ## PSPI, SPARE, REPAIR_TIME, ACQ (R183, R187, R209, R292) -/

/-- Frame rate times duration, in units of 1 / (8 × 10^8). -/
def frameLoad (i : Image) (f : Nat) : Nat :=
  let x : Spim := { table := i.pspi.table, selCfg := i.pspi.selCfg, selDly := i.pspi.selDly }
  tget 0 i.budFrame f * (x.frameTicks f + 32)

/-- PSPI: the frame with which the sum passes the limit. -/
def pspiBad (i : Image) : Option ImgFail :=
  let fs := imgFrames i
  let sum (l : List Nat) : Nat := l.foldl (fun n f => n + frameLoad i f) 0
  (fs.find? fun f => decide (640000000 < sum (fs.filter (· ≤ f)))).map fun f =>
    { reason := 0x10, index := f, value := f32Round (sum fs) 800000000, limit := f32Round 8 10 }

/-- SPARE: the first relation that an engine's model breaks, with its figure and limit. -/
def spareBad (i : Image) : Option ImgFail :=
  (i.repair.filter fun e => e.2.assigned).findSome? fun e =>
    let c := e.2
    let r := (tget {} i.apg (tget {} i.sites c.site).gang : ApgCfg).regs
    ([(c.sr, 64), (c.sc, 64), (c.sr * c.sc, 2048), (c.zr + c.xr + c.yr, 8), (c.yr, r.yw), (c.xr, r.xw), (c.zr, r.zw),
      (1, c.nb), (c.nb, 4194304)].find? fun q => decide (q.2 < q.1)).map fun q =>
        { reason := 0x11, index := e.1, value := f32Nat q.1, limit := f32Nat q.2 }

/-- REPAIR_TIME, in µs. -/
def repairTimeBad (i : Image) : Option ImgFail :=
  (i.repair.filter fun e => e.2.assigned).findSome? fun e =>
    let c := e.2
    let tg := 2000 + 2 ^ (c.zr + c.xr + c.yr) * c.nb * 5
    let td := (tget {} i.budSite c.site : BudgetSite).td.getD 0
    failIf (decide (td < tg)) { reason := 0x12, index := e.1, value := f32Round tg 1000, limit := f32Round td 1000 }

/-- ACQ. -/
def acqBad (i : Image) : Option ImgFail :=
  i.acq.findSome? fun u =>
    if 1500 < u.2.rate then some { reason := 0x13, index := u.1, value := f32Nat u.2.rate, limit := f32Nat 1500 }
    else failIf (u.2.slot == 0) { reason := 0x13, index := u.1, value := 0, limit := f32Nat 4096 }

/-! ## POWER (R251) -/

/-- Denominator of the projected powers. -/
def wattDen : Nat := 1310400000000

/-- Projected power of each region, over wattDen. -/
def powers (i : Image) : List Nat :=
  let mw : Nat := wattDen / 1000
  let bench (b : Nat) : Nat := if (imgGang i b).isSome then 8 * (70 + 30 * imgBw i b) else 8 * 5
  let die (d : Nat) : Nat := (List.range 8).foldl (fun n k => n + bench (8 * d + k)) 0
  let quad (q : Nat) : Nat := 5000 + 1000 * ((List.range 16).filter fun k => (imgGang i (16 * q + k)).isSome).length
  (List.range 8).map (fun d => die d * mw) ++ (List.range 4).map (fun q => quad q * mw) ++
    (List.range 2).map (fun s => 3 * wattDen + 9 * load2 i s) ++ [2 * wattDen, 2 * wattDen]

/-- Projected junction temperature of each region at a coolant temperature, over 2^149 × wattDen. -/
def junctions (i : Image) (tcool : Word) : List Int :=
  let ps := powers i
  (List.range 16).map fun k => ps.zipIdx.foldl
    (fun t p => t + f32Num (Config.thetaFuse i.cooling k p.2) * p.1) (f32Num tcool * wattDen)

/-- The hottest region, the lowest-numbered of equals, and its temperature. -/
def hottest (ts : List Int) : Nat × Int :=
  ts.zipIdx.foldl (fun m t => if m.2 < t.1 then (t.2, t.1) else m) (0, ts.headD 0)

/-- A temperature as a word. -/
def celsius (t : Int) : Word := f32Round t (2 ^ 149 * wattDen)

/-- POWER at a coolant temperature. -/
def powerBad (i : Image) (tcool : Word) : Option ImgFail :=
  let h := hottest (junctions i tcool)
  failIf (decide (125 * 2 ^ 149 * (wattDen : Int) ≤ h.2))
    { reason := 0x14, index := h.1, value := celsius h.2, limit := f32Nat 125 }

/-! ## The whole of admission (R246) -/

/-- A key slot: slot 0 is the vendor's, always ACTIVE (R374). -/
def State.keySlot (s : State) (k : Nat) : KeySlot :=
  if k = 0 then { state := 1, khash := Config.vendorHash, ikey := Config.vendorKey } else tget {} s.sec.slots k

/-- The bytes of a container's header and section table (R241). -/
def tableBytes (c : Container) : List Byte :=
  let words (n k : Nat) : List Word := (List.range k).map (wordOf n)
  wordBytes ([c.magic, c.fmt, c.device, c.steppings] ++ words c.length 2 ++ [c.nsect, c.keysel]) ++ bytesOf 48 c.imageId.toNat ++
    bytesOf 12 c.iv.toNat ++ wordBytes ((List.range 41).map fun k => ((c.zeros.find? fun z => z.1 = 0x5C + 4 * k).map (·.2)).getD 0) ++
    c.sections.flatMap fun e =>
      wordBytes ([wd (e.type + 65536 * e.flags), e.word1] ++ words e.offset 2 ++ words e.length 2 ++ [e.word6, e.word7])

/-- SIGNATURE (R378): over every byte up to the end of the GCM tag, under the key of an ACTIVE slot. -/
def State.signatureOk (s : State) (c : Container) : Bool :=
  decide (c.keysel.toNat < 3) && (s.keySlot c.keysel.toNat).state == 1 &&
    Config.signedBy (s.keySlot c.keysel.toNat).khash (tableBytes c ++ c.payload ++ bytesOf 16 c.gcmTag.toNat) c.sigR c.sigS

/-- DECRYPT (R379): the GCM tag under the slot's key with header and table as additional data, and IMAGE_ID over the decrypted
sections in table order. -/
def State.decryptOk (s : State) (c : Container) : Bool :=
  let head := tableBytes c
  match Config.gcmOpen (s.keySlot c.keysel.toNat).ikey c.iv head c.payload c.gcmTag with
  | none => false
  | some bs =>
    Config.sha384 ((sectionsOf c).flatMap fun e => (bs.drop (e.offset - head.length)).take e.length) == c.imageId

/-- A quiet period in µs lies in its range (R351). -/
def quietOk (us : Nat) : Bool := decide (10 ≤ us) && decide (us ≤ 100000)

/-- Section content that R414 refuses: a section that omits an entry whose choice no default makes, the partition of an engine, a
unit, a comparator or a monitor (R16, R228, R310; log 95), and a quiet period outside its range (R351; log 105). -/
def contentMissing (i : Image) : Option ImgFail :=
  let gap {α : Type} (n type : Nat) (t : Tab α) : Option ImgFail :=
    failIf ((List.range n).any fun k => (tfind t k).isNone) { reason := 2, code := 6, index := type }
  firstOf [gap 64 0x0C i.enginePart, gap 32 0x0D i.acq, gap 16 0x01 i.cmpPart, gap 64 0x0F i.monitor,
    failIf (!(i.fault.quiet.all fun q => quietOk q.2) || !quietOk i.fault.quietFt) { reason := 2, code := 6, index := 0x10 }]

/-- The content checks and the checks from STRUCTURE on. -/
def State.contentBad (s : State) (c : Container) : Option ImgFail :=
  match c.content with
  | none => some { reason := 2, code := 6, index := c.badType }
  | some i =>
    firstOf [failIf ((imgStreams i).any (fun x => !x.2.hostFed) && !(sectionsOf c).any fun e => e.type == 4)
       { reason := 2, code := 2, index := 4 },
     contentMissing i, budgetBad i, s.structureBad i, hbmMapBad i, storeBad i, landingsBad i, horizonBad i, timingBad i, levelBad i, bwBad i,
     prefillBad i, s.hostRateBad i, pspiBad i, spareBad i, repairTimeBad i, acqBad i,
     powerBad i s.pwr.tcool]

/-- The first check that a container of a loaded length fails. -/
def State.admitBad (s : State) (c : Container) (len : Nat) : Option ImgFail :=
  firstOf [formatBad c len,
   failIf (c.device != 0x5A540512 || !bit c.steppings Config.stepping) { reason := 3 },
   failIf (!s.signatureOk c) { reason := 4 },
   failIf (!s.decryptOk c) { reason := 5 },
   s.contentBad c]

end Sys2Proof.Machine
end

