-- ==== Sys2Proof/Machine/Image.lean ====
section
/-! DEFINITION. Image control: LOAD, CHECK, COMMIT and DISCARD, loading an image into the machine, and the staging areas (R244, R245, R253 to R257, R365). -/

namespace Sys2Proof.Machine

/-! ## Loading an image (R253, R254, R366) -/

/-- The stream of a bench as a commit leaves it. -/
def loadStrm (i : Image) (b : Nat) (t : Strm) : Strm :=
  let c : StreamCfg := tget {} i.streams b
  let res := c.fmt != 0 && !c.hostFed
  { t with
    cfg := { c with prefill := if c.hostFed then prefillOf (tget {} i.budStream b) else 0 },
    prod := if res then imgLoaded i b else 0, cons := 0, chw := 0, prodHist := [], eos := false, pinned := [],
    landCopy := [], loopOf := none, loopFill := 0, loopData := [], lastRec := none, low := false, lwPosted := false,
    detached := false, aborted := false, short := false }

/-- The bench that an image gives at index b. -/
def loadBench (i : Image) (b : Nat) (x : Bench) : Bench :=
  let g := imgGang i b
  let q : SeqCfg := (g.map fun k => tget {} i.seq k).getD {}
  let a : ApgCfg := (g.map fun k => tget {} i.apg k).getD {}
  let io := (q.iomask.filter fun e => e.1 / 16 = b).map fun e => (e.1 % 16, e.2)
  { x with
    part := imgPart i b,
    seq := { x.seq with state := .gated, heldState := .idle, entry := q.entry, evtEn := q.evtEn, evtVec := q.evtVec,
                        kaNano := q.kaNano, lreg := q.lreg, iomask := io },
    apg := { x.apg with regs := { a.regs with cfg := a.regs.cfg &&& apgCfgMask }, clut := a.clut, presets := a.presets },
    tmg := { x.tmg with lib := (imgTmg i b).lib, slotLo := (imgTmg i b).slotLo, slotHi := (imgTmg i b).slotHi,
                        mappedLo := true, mappedHi := true },
    lanes := tputList [] 0 ((List.range 8).map (imgLane i b)), strm := loadStrm i b x.strm,
    micro := tputList [] 0 (((g.map fun k => tget [] i.micro k).getD [])),
    nano := tputList [] 0 (((g.map fun k => tget [] i.nano k).getD [])), openEntry := [], fifo := [], flight := [] }

/-- A bench is gated, its content loaded, its resident ring filled and its landings pinned. Its channels, all in safe state,
take the safe state that the image chooses (R54). -/
def State.loadBenchAt (i : Image) (deskew : Bool) (b : Nat) (s : State) : State :=
  let s := (s.gateBench b).modBench b (loadBench i b)
  let s := s.each (List.range 8) fun l => State.modChan b l fun c => { c.safeForm (imgLane i b l).park l with
    hvChange := none, adcRestart := some s.grid,
    dsk := match deskew, i.deskew with
      | true, some t => tget 0 t (8 * b + l) &&& 0x3FFF3FFF
      | _, _ => c.dsk }
  let c : StreamCfg := tget {} i.streams b
  if c.fmt ≠ 0 ∧ !c.hostFed then (s.hbmWrite c.base (tget [] i.streamData b)).pinLandings b true else s

/-- The frame table that an image loads: reserved words and bits are zero (R10), and SAFE of a frame's word 0 tells the frames of
the safe list (R291). -/
def imgFrameTable (i : Image) : Tab Word :=
  let words := (i.pspi.table.filter fun e => frmWord (e.1 % 64)).map fun e => (e.1, e.2 &&& frmMask (e.1 % 64))
  (i.pspi.safe.filter fun e => bit e.2 31).foldl (fun t e => tmod 0 t (64 * fld e.2 0 6) (· ||| flag true 17)) words

/-- The words, stores and tables of an image take the place of those in force. -/
def State.loadImage (i : Image) (deskew : Bool) (s : State) : State :=
  let gangs : Tab Gang := i.gangs.map fun g =>
    (g.1, { cfg := { g.2 with benches := sortOn id g.2.benches }, guard := (tget {} i.seq g.1 : SeqCfg).guard })
  let sites : Tab Site := i.sites.map fun x => (x.1, { s.site x.1 with cfg := x.2, fail := tget {} i.fail x.1 })
  let s := { s with
    gangs := gangs, sites := sites, regions := i.regions, partPort := i.partPort, enginePart := i.enginePart }
  let s := s.each (List.range 64) fun e => State.modRae e fun r => { r with cfg := tget {} i.repair e }
  let s := s.each (List.range 32) fun u => State.modAcq u fun a => { a with cfg := tget {} i.acq u }
  let s := s.each (List.range 64) fun m => State.modMon m fun x => { x with assign := tget {} i.monitor m }
  let s := s.each (List.range 16) fun k => State.modCmp k fun c =>
    { c with part := tget 0 i.cmpPart k, evtBenches := tget [] i.cmpEvt k }
  let s := s.each (List.range 5) fun k => State.modReader k fun r => { r with prodLo := [], rdLo := [] }
  let s := s.modTrigx fun x => { x with routes := i.routes, en := i.routeEn }
  let s := s.modFlt fun f => { f with
    cls := i.fault.cls, quiet := i.fault.quiet, quietFt := i.fault.quietFt, limUc := i.fault.limUc, limFt := i.fault.limFt }
  let s := s.modGuy fun g => { g with g6React := i.fault.g6React }
  let s := s.modSpim fun x => { x with
    table := imgFrameTable i, selCfg := i.pspi.selCfg.map fun e => (e.1, e.2 &&& selCfgMask),
    selDly := i.pspi.selDly.map fun e => (e.1, e.2 &&& 0xFFFFFF),
    safe := i.pspi.safe.map fun e => (e.1, e.2 &&& 0x8000003F), rdonly := i.mspiRo }
  let s := s.modPwr fun p => { p with cls := i.cooling }
  let s := s.modTop fun t => { t with adminPort := i.adminPort }
  let s := s.each (List.range 64) (State.loadBenchAt i deskew)
  s.runOrReady

/-! ## The staging slot (R244, R245) -/

/-- Code of STG_STATE. -/
def StgState.code : StgState → Nat
  | .empty => 0 | .loading => 1 | .loaded => 2 | .checking => 3 | .checked => 4 | .refused => 5 | .committing => 6

/-- An image notice to the administrator port. -/
def State.imgNotice (s : State) : State := s.noticeAdmin 0x09 0 s.now s.img.stg.code

/-- The registers of the last refusal. -/
def Img.failed (x : Img) (f : ImgFail) : Img :=
  { x with reason := f.reason, dCode := f.code, dIndex := f.index, value := f.value, limit := f.limit }

/-- A boot in progress ends with a code (R365). -/
def State.bootEnd (code : Nat) (s : State) : State :=
  if s.top.booting then s.modTop fun t => { t with booting := false, bootCode := code } else s

/-- Select 0 is in mode 0 or 3, in which the boot flash can be read (R297). -/
def Spim.flashMode (x : Spim) : Bool := bit (x.cfg 0) 31 == bit (x.cfg 0) 30

/-- Read bursts of the flash for n bytes follow one another from the tick on which the port is idle (R297). -/
def State.flashBursts (n : Nat) (s : State) : State :=
  s.modSpim fun x => { x with flashFrom := some (max s.now x.idleFrom), flashLeft := n }

/-- The read bursts of the flash are over. -/
def State.flashEnd (s : State) : State :=
  s.modSpim fun x => { x with flashFrom := none, flashLeft := 0, idleFrom := if x.flashFrom.isSome then max x.idleFrom s.now else x.idleFrom }

/-- Every port is told of an image now in force (R254, R366). -/
def State.commitNotice (s : State) : State := s.each (List.range 4) fun p s => s.notice p 0x09 0 s.now s.img.stg.code

/-- A LOAD begins: from the flash, whose read bursts then occupy the peripheral port (R297), or from the host, of a length in
bytes, from an address. -/
def State.loadBegin (flash : Bool) (a n : Nat) (s : State) : State :=
  let len := if n = 0 then 2 ^ 32 else n
  let s := s.modImg fun x => { x with stg := .loading, staged := none, copyFlash := flash, copyAddr := a, copyLen := len }
  if flash && s.spim.flashMode then s.flashBursts len else s

/-- A CHECK begins. -/
def State.checkBegin (s : State) : State := s.modImg fun x => { x.failed { reason := 0 } with stg := .checking }

/-- The bits of the partitions that keep the device from being quiescent, and whether it is (R253). -/
def State.notQuiescent (s : State) : Bool × List Nat :=
  let gangs := (s.gangIxs.filter fun g => (s.gangState g).busy).map fun g => some (s.gang g).cfg.partition
  let units := ((List.range 32).filter fun u => (s.acq u).state != .idle && (s.acq u).state != .done).map fun u =>
    some (s.acq u).cfg.partition
  let engines := ((List.range 64).filter fun e => (s.rae e).state == .search).map s.raePart
  let ports := ((List.range 4).filter fun p => (s.port p).jobs.any fun j =>
    j.phase == .running && (j.type == 2 || j.type == 3 || j.type == 4 || j.type == 5 || j.type == 6)).map fun p =>
      (s.partsOf p).head?
  let applies := (s.img.applies.filter (·.armed)).map fun a => (s.partsOf a.port).head?
  let all := gangs ++ units ++ engines ++ ports ++ applies
  (!all.isEmpty, all.filterMap id)

/-- A mask of partitions. -/
def partMask (ps : List Nat) : BitVec 4 := ps.foldl (fun m p => m ||| BitVec.ofNat 4 (2 ^ p)) 0

/-- The reason for which a COMMIT is refused (R254). -/
def State.commitBad (s : State) : Option ImgFail :=
  match s.img.stg, s.img.staged.bind (·.content) with
  | .checked, some i =>
    firstOf [failIf s.notQuiescent.1 { reason := 0x16 }, s.hostRateBad i, powerBad i s.pwr.tcool]
  | _, _ => some { reason := 0x15 }

/-- A COMMIT is refused, or accepted: the benches are gated, the staging areas emptied and Contact Watch stopped (R254,
R369). -/
def State.commitTry (s : State) : State :=
  match s.commitBad with
  | some f =>
    let nq := partMask s.notQuiescent.2
    let s := s.modImg fun x =>
      { x.failed f with commitNq := if f.reason = 0x16 then nq else x.commitNq }
    (s.imgNotice).bootEnd 4
  | none =>
    let s := s.modImg fun x => { x.failed { reason := 0 } with stg := .committing, commitTick := s.now }
    let s := s.each s.siteIxs fun k s => s.each (s.site k |>.queue |>.map fun _ => k) State.serveWrite
    let s := s.each (List.range 64) fun b s => (s.gateBench b).modBench b fun x => { x with stgItems := [] }
    (s.modTop fun t => { t with cwRun := false, cwOk := false }).runOrReady

/-- A write of IMG_CTRL (R245). -/
def State.imgCtrl (v : Word) (s : State) : State :=
  let bad := s.modImg fun x => { x with badCmd := true }
  let q := s.img.stg
  match fld v 0 4 with
  | 0 => s
  | 1 =>
    if q = .loading ∨ q = .checking ∨ q = .committing then bad
    else s.loadBegin s.img.srcFlash s.img.loadAddr.toNat s.img.loadLen.toNat
  | 2 => if q = .loaded then s.checkBegin else bad
  | 4 => s.commitTry
  | 8 =>
    if q = .loaded ∨ q = .checked ∨ q = .refused then s.modImg fun x => { x with stg := .empty, staged := none } else bad
  | _ => bad

/-- LOAD_COMPLETE: the copy is in the staging slot, or has failed. Under a boot a CHECK follows (R365). -/
def State.loadDone (copied : Option Container) (s : State) : State :=
  let x := s.img
  if x.stg ≠ .loading then s
  else
    let s := s.flashEnd
    let ok := if x.copyFlash then decide (x.copyAddr + x.copyLen ≤ 2 ^ 24) && s.spim.flashMode
      else (s.port s.top.adminPort).linkUp
    match ok, copied with
    | true, some c =>
      let s := (s.modImg fun y => { y with stg := .loaded, staged := some c }).imgNotice
      if s.top.booting then s.checkBegin else s
    | _, _ => ((s.modImg fun y => { y with stg := .empty, staged := none, reason := 1 }).imgNotice).bootEnd 5

/-- CHECK_COMPLETE: the first failing check refuses the image, else it is CHECKED with its projection. Where SIGNATURE or DECRYPT
fails, its decrypted content is gone (R379). Under a boot a COMMIT follows. -/
def State.checkDone (s : State) : State :=
  match s.img.stg, s.img.staged with
  | .checking, some c =>
    match s.admitBad c s.img.copyLen, c.content with
    | none, some i =>
      let h := hottest (junctions i s.pwr.tcool)
      let s := (s.modImg fun x => { x with
        stg := .checked, projPwr := f32Round ((powers i).foldl (· + ·) 0 : Nat) wattDen, projTj := celsius h.2,
        projRegion := h.1 }).imgNotice
      if s.top.booting then s.commitTry else s
    | some f, _ =>
      let kept := if f.reason = 4 ∨ f.reason = 5 then { c with content := none } else c
      ((s.modImg fun x => { x.failed f with stg := .refused, staged := some kept }).imgNotice).bootEnd 4
    | none, none => s
  | _, _ => s

/-- IMAGE_ID bytes 0 to 7 of a container, byte 0 lowest. -/
def Img.hashOf (c : Option Container) : BitVec 64 :=
  match c with
  | some c => c.imageId.extractLsb' 0 64
  | none => 0

/-- COMMIT_COMPLETE: the image is in force, its slot is the active slot, and every port is told (R254). -/
def State.commitDone (s : State) : State :=
  match s.img.stg, s.img.staged with
  | .committing, some c =>
    match c.content with
    | none => s
    | some i =>
      let s := s.loadImage i true
      let s := s.modImg fun x => { x with
        stg := .empty, staged := none, active := some c, activeSlot := !x.activeSlot, activeValid := true,
        actHash := Img.hashOf (some c) }
      s.commitNotice.bootEnd 2
  | _, _ => s

/-- IMG_STG_HASH. -/
def Img.stgHash (x : Img) : BitVec 64 :=
  if x.stg = .checked ∨ x.stg = .committing then Img.hashOf x.staged else 0

/-! ## Staging areas (R256, R257) -/

/-- A target word with its bench replaced. -/
def withBench (t : Word) (b : Nat) : Word := at' b 26 ||| (t &&& 0x03FFFFFF)

/-- The benches whose areas an item enters: those of the gang for a library PERIOD and for an APG item. -/
def State.itemBenches (s : State) (t : Word) : List Nat :=
  let b := itBench t
  let o := itOff t
  if itSpace t = 3 ∨ (itSpace t = 1 ∧ o % 0x200 = 0 ∧ o < 0x8000) then s.apgBenches b else [b]

def State.modStg (p : Nat) (f : StgPort → StgPort) (s : State) : State :=
  s.modImg fun x => { x with stgPort := tmod {} x.stgPort p f }

/-- The bench that a port's target word names lies in its partition. -/
def State.stgOwn (s : State) (p : Nat) : Bool :=
  s.benchOwner (itBench (tget {} s.img.stgPort p : StgPort).target) == some p

/-- PUSH. -/
def State.stgPush (p : Nat) (s : State) : State :=
  let r : StgPort := tget {} s.img.stgPort p
  if !s.stgOwn p || fld r.target 16 6 != 0 then s.modStg p fun x => { x with err := true }
  else
    let bs := s.itemBenches r.target
    let full := bs.filter fun b => decide (256 ≤ (s.bench b).stgItems.length)
    if full ≠ [] then s.each full fun b => State.modBench b fun x => { x with stgOvf := true }
    else s.each bs fun b => State.modBench b fun x =>
      { x with stgItems := x.stgItems ++ [(withBench r.target b, r.value)] }

/-- CLEAR. -/
def State.stgClear (p : Nat) (s : State) : State :=
  if !s.stgOwn p then s.modStg p fun x => { x with err := true }
  else s.modBench (itBench (tget {} s.img.stgPort p : StgPort).target) fun x => { x with stgItems := [], stgOvf := false }

/-- A write of IMG_STG_CTRL(p): ERR, then CLEAR, then PUSH. -/
def State.stgCtrl (p : Nat) (v : Word) (s : State) : State :=
  let s := if bit v 31 then s.modStg p fun x => { x with err := false } else s
  let s := if bit v 1 then s.stgClear p else s
  if bit v 0 then s.stgPush p else s

end Sys2Proof.Machine
end

