-- ==== Sys2Proof/Machine/Apply.lean ====
section
/-! DEFINITION. The start of an APPLY job: its items, its validation and its arming (R257 to R260). -/

namespace Sys2Proof.Machine

/-- The item names a stageable word, and leaves HV_MODE, DIFF and SAFE of CH_CFG as they are (R257). -/
def State.stageable (s : State) (t v : Word) : Bool :=
  let o := itOff t
  o % 4 == 0 &&
  match itSpace t with
  | 0 => o == 0x800 || o == 0x804
  | 1 => decide (o < 0x8000) && libWord o
  | 2 =>
    let p := s.laneWords (itBench t) (o / 0x100)
    decide (o < 0x800) && (p.get (o % 0x100)).isSome &&
      (o % 0x100 != 0x38 || (v &&& laneMask (o / 0x100) 0x38) &&& 0x8F00 == p.chCfg &&& 0x8F00)
  | 3 => (decide (0x400 ≤ o) && decide (o ≤ 0x434)) || o == 0x440 || o == 0x448 || o == 0x44C ||
      (decide (0x480 ≤ o) && decide (o < 0x500))
  | _ => false

/-- A cut point cannot be that of an APPLY with another; one that names none takes an epoch when it is armed. -/
def CutPoint.conflicts : CutPoint → CutPoint → Bool
  | .none, .epoch _ => false
  | c, d => c != d

/-- The reason other than OVERFLOW, SPAN and PARTITION for which an APPLY is refused, with code, item and bench (R259). -/
def State.applyBad (s : State) (gs : List Nat) (cut : CutPoint) (its : List (Word × Word)) :
    Option (Nat × Nat × Nat × Nat) :=
  let past := match cut with
    | .epoch e => !s.inTime e
    | .beat n => gs.any fun g => decide (n < (s.bench (s.lead g)).seq.beat)
    | _ => false
  let plain (bad : Bool) (r : Nat) : Option (Nat × Nat × Nat × Nat) := if bad then some (r, 0, 0, 0) else none
  firstOf [plain (its.any fun i => !s.stageable i.1 i.2) 3, plain past 4,
    (s.badItem gs (fun g => (s.armedIn g).flatMap (·.items)) its).map fun x => (5, x), plain (gs.any fun g => !(s.gangState g).busy) 6,
    plain (gs.any fun g => (s.armedIn g).any fun a => cut.conflicts a.cut) 8,
    plain (gs.any fun g => decide (4 ≤ (s.armedIn g).length)) 9]

/-- The cut point that a descriptor names. -/
def cutOf (j : Job) : CutPoint :=
  match fld (j.w 1) 0 2 with
  | 1 => .flag
  | 2 => .beat (j.w64 4)
  | 3 => .epoch (j.w64 4)
  | _ => .none

/-- An APPLY job is fetched: SPAN and PARTITION are decided, and where neither holds the items staged in the benches of its gangs
are taken, their areas emptied and each OVF cleared (R258, R259). -/
def State.applyTake (p : Nat) (j : Job) (s : State) : State :=
  let gs := bitsSet 64 (j.w64 2)
  let act := fld (j.w 1) 0 2
  let refuse :=
    if 1 < gs.length ∧ (act = 1 ∨ act = 2) then 2
    else if gs.any fun g => s.ownerOf (some (s.gang g).cfg.partition) ≠ some p ∨ (tfind s.gangs g).isNone then 7
    else 0
  if refuse ≠ 0 then s.modJob p j.tag fun j => { j with refuse := refuse }
  else
    let bs := gs.flatMap s.gangBenches
    let its := bs.flatMap fun b => (s.bench b).stgItems
    let ovf := bs.any fun b => (s.bench b).stgOvf
    (s.each bs fun b => State.modBench b fun x => { x with stgItems := [], stgOvf := false }).modJob p j.tag fun j =>
      { j with taken := its, takenOvf := ovf }

/-- An APPLY job starts: it is refused, or its items are validated, to be armed at the ridgepole (R258, R259). -/
def State.applyStart (p : Nat) (j : Job) (s : State) : State :=
  let gs := bitsSet 64 (j.w64 2)
  let bad := if j.refuse ≠ 0 then some (j.refuse, 0, 0, 0) else if j.takenOvf then some (1, 0, 0, 0)
    else s.applyBad gs (cutOf j) j.taken
  match bad with
  | some (r, code, item, bench) => s.applyRefuse p j.tag { reason := r, code := code, item := item, bench := bench }
  | none =>
    let s := s.modJob p j.tag fun j => { j with phase := .running, startTick := s.now }
    let a : Apply := { port := p, tag := j.tag, cut := cutOf j, gangs := gs, items := j.taken }
    s.modImg fun x => { x with applies := x.applies ++ [a] }

/-- APPLY_ARM: the ridgepole receives a validated APPLY on this tick. What R259 refuses is judged again (log 61), and an
APPLY that names no cut point takes the epoch of R24. -/
def State.applyArm (p : Nat) (tag : BitVec 16) (s : State) : State :=
  match s.img.applies.find? fun a => a.is p tag && !a.armed with
  | none => s
  | some a =>
    let cut := match a.cut with
      | .none => .epoch s.nextCut
      | c => c
    let s := s.modImg fun x => { x with applies := x.applies.filter fun b => !b.is p tag }
    match s.applyBad a.gangs cut a.items with
    | some (r, code, item, bench) => s.applyRefuse p tag { reason := r, code := code, item := item, bench := bench }
    | none =>
      let b := { a with cut := cut, armed := true, armTick := s.now }
      (s.modImg fun x => { x with applies := x.applies ++ [b] }).applyStat p { state := 1 }

end Sys2Proof.Machine
end

