-- ==== Sys2Proof/Machine/Host.lean ====
section
/-! DEFINITION. The host ports: queues, the HBM aperture, the jobs other than SCHEDULE, and the loss of a port (R16, R88, R89, R165, R182, R224, R263, R266 to R279, R317). -/

namespace Sys2Proof.Machine

/-! ## Violations and aperture (R266, R278) -/

/-- An access that the rights do not allow: PART_VIOL, its address, and a notice to the administrator port. -/
def State.violate (p addr : Nat) (s : State) : State :=
  ((s.modPort p fun x => { x with violAddr := BitVec.ofNat 64 addr }).portStatus p fun x =>
    { x with partViol := true }).noticeAdmin 0x0C p addr 0

/-- An access to an address that holds nothing. -/
def State.unmapped (p : Nat) (s : State) : State := s.portStatus p fun x => { x with unmapped := true }

/-- How an HBM byte address stands for a port. -/
inductive Reach where
  | own | other | none
  deriving DecidableEq

def State.reach (s : State) (p a : Nat) : Reach :=
  match s.regionOf a with
  | .none => .none
  | some r => if (s.partsOf p).contains r.partition then .own else .other

/-- The flags of an aperture access to n bytes. BAR 2 sets bit 63 of the violation address. -/
def State.apertureFlags (p a n : Nat) (s : State) : State :=
  let as := (List.range n).map (a + ·)
  let s := match as.find? fun x => s.reach p x = .other with
    | some x => s.violate p (2 ^ 63 + x)
    | none => s
  if as.any fun x => s.reach p x = .none then s.unmapped p else s

/-- A BAR 2 read. The HBM is not accessible below READY. -/
def State.apertureRead (p a n : Nat) (s : State) : State :=
  if !(s.port p).linkUp then s
  else if !s.powered then (s.modReader p fun r => { r with bytes := List.replicate n 0 }).unmapped p
  else
    let bs := (List.range n).map fun i => if s.reach p (a + i) = .own then s.hbmAt (a + i) else 0
    (s.apertureFlags p a n).modReader p fun r => { r with bytes := bs }

/-- A BAR 2 write. -/
def State.apertureWrite (p a : Nat) (bs : List Byte) (s : State) : State :=
  if !(s.port p).linkUp then s
  else if !s.powered then s.unmapped p
  else
    let t := s.apertureFlags p a bs.length
    (bs.zipIdx.filter fun x => s.reach p (a + x.2) = .own).foldl (fun t x => t.hbmWrite (a + x.2) [x.1]) t

/-! ## Links (R263, R279) -/

/-- Lanes of a port under the lane split (R263). -/
def State.lanesOf (s : State) : Nat :=
  match s.top.bifStrap.toNat with
  | 1 => 8
  | 2 => 16
  | _ => 4

/-- LINK_UP: a present port trains on at most its lanes while the digital die is up. -/
def State.linkUp (p : Nat) (w : BitVec 5) (v : BitVec 4) (s : State) : State :=
  if s.present p ∧ w.toNat ≤ s.lanesOf ∧ s.pwr.dieUp ∧ s.pwr.pstate ≠ .aon then
    s.modPort p fun x => { x with linkUp := true, width := w, speed := v }
  else s

/-- The jobs of a port are abandoned without completions. -/
def State.abandonJobs (p : Nat) (s : State) : State :=
  let s := (s.port p).jobs.foldl (fun s j => if j.phase = .ended then s else s.dropJob p j) s
  s.modPort p fun x => { x with jobs := [] }

/-- The actions of orphan hold on the partition of a port, its units finalising with an END code (R279, R361). -/
def State.holdPart (q code : Nat) (s : State) : State :=
  let s := s.each (s.gangIxs.filter fun g => (s.gang g).cfg.partition = q) fun g => State.stopGang g true
  let s := s.each ((List.range 32).filter fun u => (s.acq u).cfg.partition = q) fun u => State.acqEnd u code true
  s.each ((List.range 16).filter fun i => (s.cmp i).part = q) fun i => State.modCmp i fun c => { c with armed := false }

/-- What the loss of a port leaves of it: its HOST registers take their reset values but for ORPHAN, and its status in TOP stays
(R279, R358, R391). -/
def Port.lost (x : Port) : Port :=
  { x.reset with
    orphan := true, unmapped := x.unmapped, partViol := x.partViol, badSize := x.badSize, violAddr := x.violAddr }

/-- PORT_LOSS. -/
def State.portLoss (p : Nat) (s : State) : State :=
  if !s.present p then s
  else
    let s := s.abandonJobs p
    let s := s.modPort p Port.lost
    let s := s.modReader p fun r => { r with tag := none, prodLo := [], rdLo := [] }
    let s := s.each (s.partsOf p) fun q => State.holdPart q 3
    if p = s.top.adminPort then s else s.noticeAdmin 0x0D p s.now 0

/-! ## Descriptors (R271) -/

/-- The bits of words 1 to 15 that a type uses. -/
def usedBits (ty : Nat) : List Word :=
  let f : Word := 0xFFFFFFFF
  match ty with
  | 1 => [0x33, f, f, f, f]
  | 2 => [0x13F, f, f, f, f]
  | 3 => [0x1, f, f, f, f, f, f]
  | 4 => [0x7, f, f, f, 0, f, f]
  | 5 => [0, f, f]
  | 6 => [0x3, f, f, f, f]
  | 7 => [0x3F, f, f, f, f]
  | 8 => [0x30F, f, 0xFFFF, 0x3FFFFFFF, 0, f, f]
  | _ => []

/-- The words of a descriptor whose value is out of the range of its field (R271, R272). -/
def Job.rangeBad (j : Job) : Option Nat :=
  let ones (i : Nat) : Bool := j.w64 i == 0
  match j.type with
  | 1 => if 2 ≤ fld (j.w 1) 0 2 then some 1 else if ones 2 then some 2 else none
  | 3 => if j.w64 6 = 0 ∨ 4294967296 < j.w64 6 then some 6 else none
  | 4 => if ones 2 then some 2 else if j.w 4 = 0 ∨ 65536 < (j.w 4).toNat then some 4 else none
  | 5 | 6 => if ones 2 then some 2 else none
  | 7 =>
    if 256 ≤ (j.w 4).toNat then some 4
    else if j.w 5 = 0 ∨ 256 < (j.w 4).toNat + (j.w 5).toNat then some 5 else none
  | 8 => if fld (j.w 1) 8 2 = 3 then some 1 else if 1000000000 ≤ (j.w 4).toNat then some 4 else none
  | _ => none

/-- The first word of a descriptor that breaks R271. -/
def Job.fieldBad (j : Job) : Option Nat :=
  if fld (j.w 0) 9 7 ≠ 0 then some 0
  else
    let bad := (List.range 15).find? fun i => j.w (i + 1) &&& ~~~((usedBits j.type).getD i 0) != 0
    match bad, j.rangeBad with
    | some i, some k => some (min (i + 1) k)
    | some i, none => some (i + 1)
    | none, r => r

/-! ## Queues (R267 to R269) -/

/-- A ring of a legal size and base. -/
def ringOk (base : BitVec 64) (size : BitVec 13) : Bool :=
  [16, 32, 64, 128, 256, 512, 1024, 2048, 4096].contains size.toNat && base.toNat % 4096 == 0

def State.cfgErr (p : Nat) (s : State) : State := s.modPort p fun x => { x with cfgErr := true }

/-- A write of HOST_Q_CTRL. -/
def State.queueCtrl (p : Nat) (v : Word) (s : State) : State :=
  let x := s.port p
  if bit v 0 then
    if x.quiescing then s.cfgErr p
    else if x.en then s
    else if ringOk x.sqBase x.sqSize && ringOk x.cqBase x.cqSize && ringOk x.nqBase x.nqSize then
      s.modPort p fun x => { x with
        en := true, orphan := false, sqTail := 0, sqHead := 0, cqHead := 0, cqTail := 0, nqHead := 0, nqTail := 0,
        cqPhase := true, nqPhase := true }
    else s.cfgErr p
  else if x.en && !x.quiescing then (s.abandonJobs p).modPort p fun x => { x with quiescing := true }
  else s

/-- QUIESCE_DONE. -/
def State.quiesceDone (p : Nat) (s : State) : State :=
  if (s.port p).quiescing then s.modPort p fun x => { x with quiescing := false, en := false } else s

/-- A write of HOST_SQ_TAIL. -/
def State.sqTailWrite (p : Nat) (v : Word) (s : State) : State :=
  let n := fld v 0 12
  if (s.port p).sqSize.toNat ≤ n then s.modPort p fun x => { x with dbErr := true }
  else s.modPort p fun x => { x with sqTail := BitVec.ofNat 12 n }

/-- DESCRIPTOR_FETCH: the descriptor at HOST_SQ_HEAD becomes a job. The TAG of a job in flight completes at once, an undefined
TYPE as the job starts, and an APPLY takes its items (R258, R268, R270, R271, R273). -/
def State.fetchDescriptor (p : Nat) (ws : List Word) (s : State) : State :=
  let x := s.port p
  let size := max 1 x.cqSize.toNat
  let unread := (x.cqTail.toNat + size - x.cqHead.toNat) % size
  if !x.en || x.quiescing || !x.linkUp || x.sqHead == x.sqTail || decide (256 ≤ x.jobs.length) ||
      decide (x.cqSize.toNat ≤ x.jobs.length + unread + 1) then s
  else
    let j : Job := { words := ws.take 16, sqIndex := x.sqHead.toNat, tag := (ws.getD 0 0).extractLsb' 16 16 }
    let clash := x.jobs.any fun i => i.tag == j.tag
    let j := if clash then { j with phase := .ended, status := stTag, endNo := x.ends } else j
    let s := s.modPort p fun x => { x with
      sqHead := BitVec.ofNat 12 ((x.sqHead.toNat + 1) % max 1 x.sqSize.toNat), jobs := x.jobs ++ [j],
      ends := if clash then x.ends + 1 else x.ends }
    if clash then s
    else if j.type = 6 ∧ j.fieldBad = none then s.applyTake p j
    else s.endTypes p

/-! ## The start of a job (R271 to R274) -/

/-- The jobs that a commit refuses (R254). -/
def commitJob (ty : Nat) : Bool := [1, 2, 3, 4, 5, 6].contains ty

/-- A queued job of a type, if R35 lets it act, is checked as every job is, and then started by f. -/
def State.startJob (p : Nat) (tag : BitVec 16) (want : Job → Bool) (f : Job → State → State) (s : State) : State :=
  match s.job p tag with
  | none => s
  | some j =>
    if j.phase ≠ .queued ∨ !want j ∨ !s.mayStart p j then s
    else match j.fieldBad with
      | some i => s.endJob p tag stField i 0
      | none =>
        if s.img.stg = .committing ∧ commitJob j.type then s.endJob p tag stCommit 0 0
        else if !s.powered ∧ j.type ≠ 9 then s.endJob p tag stState 0 0
        else f j s

/-- The job takes up its operation now. -/
def State.jobRuns (p : Nat) (tag : BitVec 16) (s : State) : State :=
  s.modJob p tag fun j => { j with phase := .running, startTick := s.grid }

/-! ## RUN (R126, R127, R165, R272) -/

/-- A gang in the structure, in the partition of port p. -/
def State.ownsGang (s : State) (p g : Nat) : Bool :=
  (tfind s.gangs g).isSome && s.ownerOf (some (s.gang g).cfg.partition) == some p

/-- The lowest-numbered bench for which a named gang cannot start (R272). -/
def State.startBench (s : State) (gs : List Nat) : Option Nat :=
  (gs.flatMap fun g => (s.gangBenches g).filter fun b =>
    let q := (s.bench b).seq.state
    !(q == .idle || q == .halted || q == .stopped || q == .faulted) ||
      (s.bench b).tmg.periods != (s.bench (s.lead g)).tmg.periods).min?

/-- The lowest-numbered engine in SEARCH of the sites of gangs, which refuses their start (R188). -/
def State.startEngine (s : State) (gs : List Nat) : Option Nat :=
  (((gs.flatMap s.sitesOfGang).flatMap s.enginesOf).filter fun e => s.searching e).min?

/-- What refuses a start that the ridgepole receives: status and detail (R165, R188, R272). -/
def State.startBad (s : State) (gs : List Nat) : Option (Nat × Nat) :=
  firstOf [(s.startBench gs).map fun b => (stState, b),
    (((gs.flatMap s.gangBenches).filter fun b => !s.prefilled b).min?).map fun b => (stPrefill, b),
    (s.startEngine gs).map fun e => (stRepairBusy, e)]

/-- What refuses a start over the guyline as its job starts; its streams are judged when the ridgepole receives it (R165, R188,
R272, R273). -/
def State.guyBad (s : State) (gs : List Nat) : Option (Nat × Nat) :=
  firstOf [(s.startBench gs).map fun b => (stState, b), (s.startEngine gs).map fun e => (stRepairBusy, e)]

/-- The bitmaps of the sites of gangs are cleared (R182): the HBM bits, while an update of an earlier run that still waits in a
site's write queue is written after it (log 116). -/
def State.clearBitmaps (gs : List Nat) (s : State) : State :=
  s.each (gs.flatMap s.sitesOfGang) fun i s =>
    let f := (s.site i).fail
    if f.hasBm then s.hbmZero f.bmBase (bmBytes f) else s

/-- RUN START. A start over the guyline waits for the agreement; BMCLR acts as its job starts (log 117). -/
def State.runStart (p : Nat) (tag : BitVec 16) (s : State) : State :=
  s.startJob p tag (fun j => j.type == 1 && fld (j.w 1) 0 2 != 1) fun j s =>
    let gs := bitsSet 64 (j.w64 2)
    let guy := bit (j.w 1) 5
    let clear (s : State) : State := if bit (j.w 1) 4 then s.clearBitmaps gs else s
    match gs.find? fun g => !s.ownsGang p g with
    | some g => s.endJob p tag stPartition g 0
    | none =>
      if guy then
        match s.guyBad gs with
        | some (st, d) => s.endJob p tag st d 0
        | none =>
          ((clear s).jobRuns p tag).modGuy fun y => { y with state := 1, reason := 0, released0 := false, waiting := y.waiting ++ [(p, tag, s.now)] }
      else match s.startBad gs with
        | some (st, d) => s.endJob p tag st d 0
        | none =>
          let e := if j.w64 4 = 0 then s.nextCut else j.w64 4
          if !s.inTime e then s.endJob p tag stPast 0 0
          else (s |> clear |>.each gs fun g => State.arm g e).endJob p tag stOk 0 e

/-- The RUN STARTs of a port that wait for the guyline agreement and name one of a list of gangs end with ABORTED (R127). -/
def State.abortWaiting (p : Nat) (gs : List Nat) (s : State) : State :=
  let js := (s.port p).jobs.filter fun i =>
    i.type == 1 && i.phase == .running && fld (i.w 1) 0 2 != 1 && bit (i.w 1) 5 && (bitsSet 64 (i.w64 2)).any gs.contains
  js.foldl (fun s i => (s.dropJob p i).endJob p i.tag stAborted 0 0) s

/-- RUN STOP. -/
def State.runStop (p : Nat) (tag : BitVec 16) (s : State) : State :=
  s.startJob p tag (fun j => j.type == 1 && fld (j.w 1) 0 2 != 0) fun j s =>
    let gs := bitsSet 64 (j.w64 2)
    match gs.find? fun g => !s.ownsGang p g with
    | some g => s.endJob p tag stPartition g 0
    | none => (((s.abortWaiting p gs).jobRuns p tag).each gs fun g => State.stopGang g false).runStops

/-! ## STREAM, FETCH, MEASURE (R157, R224, R272) -/

/-- A job ends with a DMA error after a number of bytes. -/
def State.dmaError (p : Nat) (tag : BitVec 16) (n : Nat) (s : State) : State := s.endJob p tag stDma 0 n

/-- The bytes that host memory has returned at the job's address join the ring, as far as LIMIT allows; none is a DMA error.
PROD advances over whole records (R157, R269). -/
def State.streamMove (p : Nat) (tag : BitVec 16) (data : Option (List Byte)) (s : State) : State :=
  match s.job p tag with
  | none => s
  | some j =>
    let b := fld (j.w 1) 0 6
    let t := (s.bench b).strm
    let n := max 1 t.recSize
    let q := t.prod + j.done % n
    match data with
    | none => s.dmaError p tag j.done
    | some bs =>
      let bs := bs.take (min (j.w64 4 - j.done) (t.limit - q))
      let s := bs.zipIdx.foldl (fun s x => s.hbmWrite (t.addr (q + x.2)) [x.1]) s
      let done := j.done + bs.length
      let prod := q + bs.length - (q + bs.length) % n
      let s := s.modJob p tag fun j => { j with done := done }
      let s := if prod = t.prod then s else s.setProd b prod
      if done < j.w64 4 then s
      else
        let s := if bit (j.w 1) 8 then s.markEos b else s
        s.endJob p tag stOk 0 (s.bench b).strm.prod

/-- STREAM: the job starts, or its copy goes on with the bytes given. -/
def State.streamJob (p : Nat) (tag : BitVec 16) (data : Option (List Byte)) (s : State) : State :=
  let running : Bool := match s.job p tag with
    | some j => j.type == 2 && j.phase == .running
    | none => false
  if running then s.streamMove p tag data
  else s.startJob p tag (·.type == 2) fun j s =>
    let b := fld (j.w 1) 0 6
    let t := (s.bench b).strm
    if s.benchOwner b ≠ some p then s.endJob p tag stPartition b 0
    else if t.cfg.fmt = 0 ∨ !t.cfg.hostFed then s.endJob p tag stState b 0
    else if j.w64 4 % max 1 t.recSize ≠ 0 ∨ t.cfg.size < j.w64 4 then s.endJob p tag stField 4 0
    else (s.jobRuns p tag).streamMove p tag data

/-- The next bytes of a FETCH move; the bytes given are those read from the host, or stand for those the host has taken. None
is a DMA error. -/
def State.fetchMove (p : Nat) (tag : BitVec 16) (data : Option (List Byte)) (s : State) : State :=
  match s.job p tag with
  | none => s
  | some j =>
    match data with
    | none => s.dmaError p tag j.done
    | some bs =>
      let n := min bs.length (j.w64 6 - j.done)
      let a := j.w64 2 + j.done
      let s := if bit (j.w 1) 0 then s.hbmWrite a (bs.take n) else s.hostWrite p (j.w64 4 + j.done) (s.hbmRead a n)
      let s := s.modJob p tag fun j => { j with done := j.done + n }
      if j.done + n < j.w64 6 then s else s.endJob p tag stOk 0 (j.w64 6)

/-- FETCH. -/
def State.fetchJob (p : Nat) (tag : BitVec 16) (data : Option (List Byte)) (s : State) : State :=
  let running : Bool := match s.job p tag with
    | some j => j.type == 3 && j.phase == .running
    | none => false
  if running then s.fetchMove p tag data
  else s.startJob p tag (·.type == 3) fun j s =>
    if (s.partsOf p).any fun q => s.rangeIn q (j.w64 2) (j.w64 6) then (s.jobRuns p tag).fetchMove p tag data
    else s.endJob p tag stPartition 0 0

/-- The channels that a MEASURE or CAL job names, as (bench, lane). -/
def Job.measured (j : Job) : List (Nat × Nat) :=
  (bitsSet 64 (j.w64 2)).map fun i => (8 * fld (j.w 1) 0 3 + i / 8, i % 8)

/-- The converter result of lane l of bench b at grid point f, a free value where none was delivered. -/
def State.resultAt (f : Nat) : List (Nat × Nat) → State → List (Nat × Nat × Word) × State
  | [], s => ([], s)
  | c :: r, s =>
    let (v, s) := match (s.chan c.1 c.2).adcResults.find? fun x => x.1 = f with
      | some x => (x.2, s)
      | none => let (n, s) := s.free; (wd n, s)
    let (vs, s) := State.resultAt f r s
    ((9, 8 * c.1 + c.2, v) :: vs, s)

/-- The next block of a MEASURE is written for its result time, or host memory refuses it after a part of it. While the metrology
die is down there is no block (R215, R224). -/
def State.measureMove (p : Nat) (tag : BitVec 16) (ok : Bool) (s : State) : State :=
  match s.job p tag with
  | none => s
  | some j =>
    if !s.met.running then s
    else
      let cs := j.measured
      let us := ((cs.head?).map fun c => (s.lane c.1 c.2).resultUs).getD 1
      let f := gridAfter us j.startTick + 800 * us * j.done
      let size := 0x28 + 8 * cs.length
      let s := s.advanceTo (s.now + (f - s.grid))
      let (vs, s) := s.resultAt f cs
      let ws := s.blockWords s.met.blockSeq f vs
      let bs := wordBytes (ws ++ s.tag ws)
      let s := s.modMet fun m => { m with blockSeq := m.blockSeq + 1 }
      let at_ := j.w64 6 + j.done * size
      if !ok then
        let (n, s) := s.free
        (s.hostWrite p at_ (bs.take (n % size))).dmaError p tag (j.done * size + n % size)
      else
        let s := (s.hostWrite p at_ bs).modJob p tag fun j => { j with done := j.done + 1 }
        if j.done + 1 < (j.w 4).toNat then s else s.endJob p tag stOk 0 (j.w 4).toNat

/-- MEASURE. -/
def State.measureJob (p : Nat) (tag : BitVec 16) (ok : Bool) (s : State) : State :=
  let running : Bool := match s.job p tag with
    | some j => j.type == 4 && j.phase == .running
    | none => false
  if running then s.measureMove p tag ok
  else s.startJob p tag (·.type == 4) fun j s =>
    let cs := j.measured
    match cs.find? fun c => s.benchOwner c.1 ≠ some p with
    | some c => s.endJob p tag stPartition (8 * c.1 + c.2) 0
    | none =>
      if s.top.cwRun then s.endJob p tag stState 0 0
      else
        let us := cs.map fun c => (s.lane c.1 c.2).resultUs
        if us.any fun u => u ≠ us.headD 1 then s.endJob p tag stField 2 0
        else (s.jobRuns p tag).measureMove p tag ok

/-! ## CAL (R88 to R90) -/

/-- CAL: the sweeps begin, on benches that are not ARMED or running; State.acting gives the lanes' settings until the job ends
(R88). -/
def State.calJob (p : Nat) (tag : BitVec 16) (s : State) : State :=
  s.startJob p tag (·.type == 5) fun j s =>
    let bs := bitsSet 64 (j.w64 2)
    match bs.find? fun b => s.benchOwner b ≠ some p with
    | some b => s.endJob p tag stPartition b 0
    | none =>
      if s.top.cwRun then s.endJob p tag stState 0 0
      else match bs.find? fun b => (s.bench b).seq.state.busy with
        | some b => s.endJob p tag stState b 0
        | none => s.jobRuns p tag

/-- The decision of 256 repetitions, from the count above the threshold; past tells a crossing that has gone by: above the
threshold after a rising step, not above it after a falling one (R88). A tie of 128 counts as not above it (log 107). -/
def passed (rise : Bool) (n : Nat) : Bool := if rise then 128 < n else n ≤ 128

/-- The first position of a coarse sweep, in qps, at which a crossing has gone by. -/
def coarseAt (rise : Bool) : Nat → List Nat → Option Nat
  | _, [] => none
  | t, n :: r => if passed rise n then some t else coarseAt rise (t + 64) r

/-- The bisection of the w qps below hi: the least position found past the crossing (R88). -/
def bisect (rise : Bool) : Nat → Nat → List Nat → Nat
  | hi, _, [] => hi
  | hi, w, n :: r => bisect rise (if passed rise n then hi - w / 2 else hi) (w / 2) r

/-- The launch and reflected crossings of one direction, none where one of them is not within the sweep, of 500 positions and 6
of each bisection (R88). -/
def tdrTimes (e : TdrEdge) (rise : Bool) : Option (Nat × Nat) :=
  let sweep := e.coarse.take 500
  let lo := sweep.map (·.1)
  let hi := sweep.map (·.2)
  match coarseAt rise 0 (if rise then lo else hi), coarseAt rise 0 (if rise then hi else lo) with
  | some a, some b => some (bisect rise a 64 (e.fine1.take 6), bisect rise b 64 (e.fine2.take 6))
  | _, _ => none

/-- t_path of a lane: half the distance of the mean crossings, to the nearest qps, ties to even (R88; log 86). -/
def tdrPath (w : TdrSweep) : Option Nat :=
  match tdrTimes w.rising true, tdrTimes w.falling false with
  | some (r1, r2), some (f1, f2) => some (roundDiv ((r2 : Int) + f2 - (r1 + f1)) 4).toNat
  | _, _ => none

/-- The TDR word and deskew of channel c from its t_path (R85, R89). -/
def tdrWord (c : Nat) (path : Option Nat) : Word × Option Word :=
  match path with
  | none => (at' 2 30, none)
  | some path =>
    if 16000 < Config.tDrv c + path ∨ 16383 < Config.tCmp c + path then (at' 3 30 ||| wd (path % 16384), none)
    else (at' 1 30 ||| wd (path % 16384), some (at' (Config.tCmp c + path) 16 ||| wd (16000 - Config.tDrv c - path)))

/-- CAL_COMPLETE: every OK lane takes its new deskew values in one step, and the job completes. A lane without a sweep had no
reflected crossing. -/
def State.calDone (p : Nat) (tag : BitVec 16) (sweeps : List TdrSweep) (s : State) : State :=
  match s.job p tag with
  | none => s
  | some j =>
    if j.type ≠ 5 ∨ j.phase ≠ .running then s
    else
      let cs := (bitsSet 64 (j.w64 2)).flatMap fun b => (List.range 8).map fun l => (b, l)
      let word (b l : Nat) : Word × Option Word :=
        tdrWord (8 * b + l) ((sweeps.find? fun w => w.bench.val = b && w.lane.val = l).bind tdrPath)
      let s := cs.foldl (fun s c => s.modChan c.1 c.2 fun x =>
        { x with tdr := (word c.1 c.2).1, dsk := ((word c.1 c.2).2).getD x.dsk }) s
      match cs.find? fun c => (word c.1 c.2).2.isNone with
      | some c => s.endJob p tag stPartial c.1 0
      | none => s.endJob p tag stOk 0 0

/-! ## APPLY, REPAIR_REPORT, FENCE -/

/-- APPLY. -/
def State.applyJob (p : Nat) (tag : BitVec 16) (s : State) : State := s.startJob p tag (·.type == 6) (State.applyStart p)

/-- REPAIR_REPORT: 132 words of each region are copied, or host memory refuses part of them. A region that the engine does not
have is out of range (R4, R183). -/
def State.reportJob (p : Nat) (tag : BitVec 16) (ok : Bool) (s : State) : State :=
  s.startJob p tag (·.type == 7) fun j s =>
    let e := fld (j.w 1) 0 6
    let c := (s.rae e).cfg
    let regions := 2 ^ (c.zr + c.xr + c.yr)
    if s.raeOwner e ≠ some p then s.endJob p tag stPartition e 0
    else if regions ≤ (j.w 4).toNat then s.endJob p tag stField 4 0
    else if regions < (j.w 4).toNat + (j.w 5).toNat then s.endJob p tag stField 5 0
    else if (s.rae e).state ≠ .done then s.endJob p tag stState e 0
    else
      let n := 132 * (j.w 5).toNat
      let bs := wordBytes ((List.range n).map fun i => (s.rae e).solution (132 * (j.w 4).toNat + i))
      if ok then (s.hostWrite p (j.w64 2) bs).endJob p tag stOk 0 n
      else
        let (k, s) := s.free
        (s.hostWrite p (j.w64 2) (bs.take (k % (4 * n)))).dmaError p tag (k % (4 * n))

/-- FENCE. -/
def State.fenceJob (p : Nat) (tag : BitVec 16) (s : State) : State :=
  s.startJob p tag (·.type == 9) fun _ s => s.endJob p tag stOk 0 0

end Sys2Proof.Machine
end

