-- ==== Sys2Proof/Machine/Guy.lean ====
section
/-! DEFINITION. The guyline: its levels, the start agreement, the strobe and the fault broadcast (R316 to R320). -/

namespace Sys2Proof.Machine

/-! ## The agreement (R317) -/

/-- The gangs of the waiting starts. -/
def State.waitingGangs (s : State) : List Nat :=
  s.guy.waiting.flatMap fun w => match s.job w.1 w.2.1 with
    | some j => bitsSet 64 (j.w64 2)
    | none => []

/-- The code of the first check of R317 that fails, 0 when all hold. -/
def State.agreeReason (s : State) : Nat :=
  let g := s.guy
  if !g.descWritten then 1
  else if g.descHash ≠ s.img.actHash then 2
  else if g.descStepping.toNat ≠ Config.stepping then 3
  else if s.time.quality < g.qmin.toNat then 4
  else if g.req ∧ ((s.startBench s.waitingGangs).isSome ∨ s.flt.firstValid) then 5
  else 0

/-- The agreement is satisfied now. -/
def State.agreed (s : State) : Bool := !s.guy.waiting.isEmpty && s.agreeReason == 0

/-! ## Lines (R316, R368) -/

/-- This device pulls line i low now: GUY[0] on every tick on which the agreement is not satisfied (R316, R317, R319); none while
the digital die is in reset or not up (R330, R360). -/
def State.pulls (s : State) (i : Nat) : Bool :=
  s.pwr.dieUp && match i with
  | 0 => s.guy.g0Part && !s.guy.released0 && !s.agreed
  | 1 => s.guy.pull1
  | 6 => s.guy.g6Driving
  | 7 => s.time.ppsLow
  | _ => (tget {} s.trigx.outs (i + 2) : TrigOut).active

/-- The input of line i has armed. -/
def State.guyArmed (s : State) (i : Nat) : Bool := s.top.inArmed.getLsbD (4 + i)

/-- Line i as it reads: high until its input has armed. -/
def State.guyIn (s : State) (i : Nat) : Bool := !s.guyArmed i || (s.guy.level.getLsbD i && !s.pulls i)

/-- Bit i of the guyline levels. -/
def setBit8 (v : BitVec 8) (i : Nat) (b : Bool) : BitVec 8 :=
  let m := BitVec.ofNat 8 (2 ^ i)
  if b then v ||| m else v &&& ~~~m

/-- A falling edge of line i is detected: another device pulls it low, if this one does not. -/
def State.lineFalls (i : Nat) (s : State) : State :=
  if s.pulls i then s else s.modGuy fun g => { g with level := setBit8 g.level i false }

/-- The tick is kept since which GUY[0] has read high with the agreement satisfied. -/
def State.agreeUpdate (s : State) : State :=
  s.modGuy fun g => { g with g0HighSince := if s.agreed && s.guyIn 0 then some (g.g0HighSince.getD s.now) else none }

/-- The same after a command that may change a check of R317, where a start waits. -/
def State.settle (s : State) : State :=
  if s.guy.waiting.isEmpty && s.guy.g0HighSince.isNone then s else s.agreeUpdate

/-- A change that may break or restore a check of R317: the agreement is judged before it and after it (R318). -/
def State.judged (f : State → State) (s : State) : State := (f s.settle).settle

/-! ## Strobe (R318) -/

/-- GUY_STROBE: the strobe master pulls GUY[1] low on tick 0 of the first epoch that begins after GUY[0] has read high for 16
ticks. -/
def State.guyStrobe (s : State) : State :=
  let s := s.agreeUpdate
  match s.guy.g0HighSince with
  | none => s
  | some t =>
    if !s.guy.strobeMaster || !s.guy.g0Part || !s.agreed || s.guy.pull1 || !s.clk.pllLock then s
    else
      let s := s.advanceTo (t + 16)
      let s := s.toEpoch (ceilDiv s.grid 256)
      s.modGuy fun g => { g with pull1 := true, strobeEnd := s.now + 64 }

/-- GUY_STROBE_END. -/
def State.guyStrobeEnd (s : State) : State :=
  if s.guy.pull1 then (s.advanceTo s.guy.strobeEnd).modGuy fun g => { g with pull1 := false } else s

/-- A waiting start takes epoch e, if nothing refuses it now. -/
def State.guyBegin (e p : Nat) (tag : BitVec 16) (gs : List Nat) (s : State) : State :=
  match s.startBad gs with
  | some (st, d) => s.endJob p tag st d 0
  | none => (s.each gs fun g => State.arm g e).endJob p tag stOk 0 e

/-- The same for the job, if it is still there, and the gangs that the structure has. -/
def State.guyStart (e : Nat) (w : Nat × BitVec 16 × Nat) (s : State) : State :=
  match s.job w.1 w.2.1 with
  | none => s
  | some j => s.guyBegin e w.1 w.2.1 ((bitsSet 64 (j.w64 2)).filter fun g => (tfind s.gangs g).isSome)

/-- GUY_STROBE_EDGE: the line has fallen, and every waiting start takes epoch D + 3. -/
def State.guyEdge (s : State) : State :=
  let s := s.agreeUpdate
  if !s.guyArmed 1 then s
  else
    let s := s.lineFalls 1
    if s.guy.waiting.isEmpty || !s.guy.g0Part || !s.guyIn 0 || !s.clk.pllLock then s
    else
    let e := s.clk.epoch + 3
    let s := s.guy.waiting.foldl (fun s w => s.guyStart e w) s
    (s.modGuy fun g => { g with
      waiting := [], descWritten := false, state := 2, reason := 0, startEpoch := BitVec.ofNat 64 e }).agreeUpdate

/-! ## Timeout (R319) -/

/-- GUY_AGREE_TIMEOUT: the oldest waiting start is refused with the device's own reason, GUY[0] is released and the descriptor
cleared. -/
def State.guyTimeout (s : State) : State :=
  match s.guy.waiting with
  | [] => s
  | w :: r =>
    let s := (s.advanceTo (w.2.2 + 800 * s.guy.agreeTmo.toNat)).agreeUpdate
    let local' := s.agreeReason
    let code := if local' ≠ 0 then local' else if s.guyIn 0 then 7 else 6
    let s := s.endJob w.1 w.2.1 stRefused code 0
    (s.modGuy fun g => { g with
      waiting := r, descWritten := false, descHash := 0, descStepping := 0, qmin := 0, req := false, released0 := true,
      state := 3, reason := code }).agreeUpdate

/-! ## Fault broadcast (R320) -/

/-- GUY_FAULT: a falling edge of GUY[6] that this device does not drive. -/
def State.guyFault (s : State) : State :=
  if s.guy.g6Driving || !s.guyArmed 6 then s
  else
    let s := (s.lineFalls 6).modGuy fun g => { g with g6Seen := true }
    let r := s.guy.g6React.toNat
    let s := s.each (List.range 4) fun p s => s.notice p 0x1B 0 s.now r
    let s := if r = 1 ∨ r = 2 then s.each (s.gangIxs.filter fun g => (s.gangState g).running) fun g => State.stopGang g false
      else s
    if r = 2 then s.each (List.range 64) State.benchSafe else s

/-! ## Registers (R315, R317 to R322) -/

/-- A write of GUY_CFG. -/
def State.guyCfg (v : Word) (s : State) : State :=
  (s.modGuy fun g => { g with
    syncSe := bit v 9, syncEvery := bit v 8, g6Out := bit v 2, strobeMaster := bit v 1, g0Part := bit v 0 }).agreeUpdate

/-- A write of GUY_DESC_REQ. -/
def State.guyReq (v : Word) (s : State) : State :=
  (s.modGuy fun g => { g with
    descWritten := true, descStepping := v.extractLsb' 16 8, qmin := v.extractLsb' 8 2, req := bit v 0 }).agreeUpdate

/-- Writes of GUY_AGREE_TMO and GUY_SYNC_TRIM. -/
def State.agreeTmo (v : Word) (s : State) : State :=
  if v = 0 ∨ 1000000 < v.toNat then s else s.modGuy fun g => { g with agreeTmo := v }
def State.syncTrim (v : Word) (s : State) : State :=
  if s.anyBusy ∨ 4999 < fld v 0 13 then s else s.modGuy fun g => { g with syncTrim := v.extractLsb' 0 13 }

/-- GUY_IN. -/
def State.guyLevels (s : State) : Word := (List.range 8).foldl (fun w i => w ||| flag (s.guyIn i) i) 0

end Sys2Proof.Machine
end

