-- ==== Sys2Proof/Machine/Power.lean ====
section
/-! DEFINITION. Resets of the digital die, power states, bench gating and the thermal model (R330 to R339, R355, R359, R369). -/

namespace Sys2Proof.Machine

/-! ## What a reset leaves (R355, R359) -/

/-- A bench after a warm reset: deskew tables and TDR results are kept. -/
def Bench.reset (x : Bench) : Bench :=
  { chans := x.chans.map fun c => (c.1, { dsk := c.2.dsk, tdr := c.2.tdr }) }

/-- The metrology die, with the digital die's side of it at its reset values. -/
def Met.digitalReset (m : Met) : Met :=
  { m with mirrorBad := false, mirrorOk := false, mirrorTries := 0, mirror := [], rb := [], rbQueue := [], rbStart := 0 }

/-- What a warm reset keeps of the fault collector; the sources of the always-on domain stay as they are (R338, R343). -/
def Flt.warm (f : Flt) : Flt :=
  { overflow := f.overflow, firstValid := f.firstValid, firstRail := f.firstRail, firstSub := f.firstSub,
    firstClass := f.firstClass, firstSrc := f.firstSrc, firstTick := f.firstTick, firstSec := f.firstSec,
    firstNs := f.firstNs, firstCycle := f.firstCycle, cntCe := f.cntCe, cntUc := f.cntUc, cntFt := f.cntFt, recFt := f.recFt, faultN := f.faultN,
    active := f.active.filter fun x => decide (1336 ≤ x.1) }

/-- What a warm reset keeps of the power block: the thermal model and what it holds asserted, the cooling class of the image
in force, and the wake timer (R337, R338, R359). -/
def Pwr.warm (p : Pwr) : Pwr :=
  { tcool := p.tcool, cls := p.cls, x := p.x, hot := p.hot, wakeSec := p.wakeSec, wakeNs := p.wakeNs, wakeArm := p.wakeArm, fired := p.fired,
    wtarget := p.wtarget }

/-- The administrator port that the straps name; port 0 where that port is not present (R276). -/
def Top.strapped (t : Top) : Nat :=
  let a := t.adminStrap.toNat
  let there := match t.bifStrap.toNat with
    | 1 => decide (a < 2)
    | 2 => a == 0
    | _ => true
  if there then a else 0

/-- What a warm reset keeps of TOP: straps, reset causes and the Contact Watch mask, with the course of start-up. -/
def Top.warm (t : Top) : Top :=
  { porstLow := t.porstLow, resetLow := t.resetLow, resetPin := t.resetPin, phase := t.phase, wasReady := t.wasReady, bifStrap := t.bifStrap,
    adminStrap := t.adminStrap, adminPort := t.strapped, causeCold := t.causeCold, causeWarm := t.causeWarm,
    causeSoft := t.causeSoft, cwMask := t.cwMask, jtag := t.jtag, jtagHold := t.jtagHold, boundary := t.boundary,
    tdo := t.tdo }

/-- The security block after any reset: fuses and keys stay, provisioning registers clear. A programming cut short leaves
its slot BLANK or ACTIVE, a free choice. -/
def State.secReset (s : State) : State :=
  let x := s.sec
  let (n, s) := if x.busy then s.free else (0, s)
  let slots := if x.busy && n % 2 == 1 then tmod {} x.slots x.busySlot fun k => { k with state := 1 } else x.slots
  { s with sec := { rma := x.rma, rmaPending := x.rmaPending, slots := slots, hbmKey := x.hbmKey, keyDraws := x.keyDraws,
                    nonce := x.nonce, testOpen := x.testOpen } }

/-- The image block after a warm reset: slots and pointer stay. -/
def Img.warm (i : Img) : Img :=
  { activeSlot := i.activeSlot, active := i.active, reload := i.active.isSome }

/-- The clocks after the digital die's reset or power-down: the main PLL is not locked, and the holdover counter, where it runs
already, runs on (R300, R406). -/
def Clk.stopped (c : Clk) : Clk := { holdN := c.holdN, holdErr := c.holdErr, offCycles := c.offCycles }

/-- Every part of the digital die at its reset value but what R359 lists. -/
def State.warmReset (s : State) : State :=
  let s := s.secReset
  { clk := s.clk.stopped, pending := s.pending, freeCtr := s.freeCtr, hbm := s.hbm, hbmPast := s.hbmPast, sec := s.sec,
    time := { sec := s.time.sec, nsq := s.time.nsq }, pwr := s.pwr.warm, flt := s.flt.warm,
    top := { s.top.warm with bootDue := s.img.active.isNone }, img := s.img.warm, met := s.met.digitalReset,
    benches := s.benches.map fun b => (b.1, b.2.reset), ports := s.ports.map fun p => (p.1, p.2.reset) }

/-- Power-down to AON: the digital die loses what a warm reset clears, and the always-on domain and the registers that it
serves stay, with the tick and epoch numbers at their last values (R325, R330, R395). Each trained port is lost. -/
def State.enterAon (s : State) : State :=
  let s := s.each ((List.range 4).filter fun p => (s.port p).linkUp) State.portLoss
  let t := s.warmReset
  let f := s.flt
  { t with
    pwr := { s.pwr with pstate := .aon, dieUp := false, selfRefresh := true },
    top := { s.top with cwRun := false, cwOk := false, inArmed := 0, trigLevel := 0, mirrorDone := false,
                        booting := false },
    time := { s.time with cmps := [], caps := [], exch := none },
    flt := { f with active := f.active.filter (fun x => decide (1336 ≤ x.1)), unsampled := [], dropped := [], seen := [], cls := [], quiet := [],
                    quietFt := 100000 },
    spim := { overclk := s.spim.overclk, rdonly := s.spim.rdonly, prevErr := s.spim.prevErr, frameErr := s.spim.frameErr,
              crcErr := s.spim.crcErr, response := s.spim.response, fUnmapped := s.spim.fUnmapped,
              fDenied := s.spim.fDenied, fOffline := s.spim.fOffline },
    img := { s.img with stg := .empty, staged := none, applies := [], apply := [], stgPort := [],
                        reload := s.img.active.isSome },
    partPort := s.partPort,
    clk := { t.clk with devTick := s.clk.devTick, epoch := s.clk.epoch, phase := s.clk.phase, refOk := s.clk.refOk,
                        lockN := s.clk.lockN, lockWin := s.clk.lockWin },
    ports := s.ports.map fun p => (p.1, { p.2.reset with orphan := p.2.orphan }) }

/-! ## Contact Watch and mirror at READY (R364, R369) -/

/-- The CAL and MEASURE jobs of a port that are running complete with STATE: Contact Watch has started (R369). -/
def State.cwJobs (p : Nat) (s : State) : State :=
  ((s.port p).jobs.filter fun j => j.phase == .running && (j.type == 4 || j.type == 5)).foldl
    (fun s j => s.endJob p j.tag stState 0 0) s

/-- Contact Watch starts where it is to run: READY, no image in force, and the mirror step done. -/
def State.cwBegin (s : State) : State :=
  if s.pwr.pstate = .ready && !s.img.activeValid && s.top.mirrorDone && !s.top.cwRun && s.img.stg != .committing then
    (s.each (List.range 4) State.cwJobs).modTop fun t => { t with
      cwRun := true, cwStart := s.now, cwScanned := false, cwScans := 0, cwClass := [], cwOk := false }
  else s

/-! ## Bench gating (R333) -/

/-- A refused write of BENCH_PWR. -/
def State.benchPwrErr (b code : Nat) (s : State) : State :=
  s.modBench b fun x => { x with pwrErr := true, pwrCode := code }

/-- WAKE. -/
def State.wakeBench (b : Nat) (s : State) : State :=
  if (s.bench b).awake || (s.bench b).waking then s
  else if !s.ready then s.benchPwrErr b 1
  else s.modBench b fun x => { x with waking := true, acqN := s.clk.lockN, acqWin := s.clk.lockWin }

/-- GATE. The last bench gated takes the device back to READY, where Contact Watch may be due (R331, R369). -/
def State.gateWrite (b : Nat) (s : State) : State :=
  let q := (s.gangOf b).map s.gangState
  if q.any SeqState.busy then s.benchPwrErr b 2 else (s.gateBench b).runOrReady.cwBegin

/-- A write of BENCH_PWR: ERR, then GATE, then WAKE. -/
def State.benchPwr (b : Nat) (v : Word) (s : State) : State :=
  let s := if bit v 31 then s.modBench b fun x => { x with pwrErr := false, pwrCode := 0 } else s
  let s := if bit v 1 then s.gateWrite b else s
  if bit v 0 then s.wakeBench b else s

/-- DLL_LOCK: a waking bench becomes awake, and an awake bench's DLL is locked again (R324, R333). -/
def State.dllLocked (b : Nat) (s : State) : State :=
  let x := s.bench b
  if x.waking then
    (s.modBench b fun x => { x with
      waking := false, awake := true, dllLock := true,
      seq := if x.seq.state = .gated then { x.seq with state := x.seq.heldState } else x.seq }).runOrReady
  else if x.awake then s.modBench b fun x => { x with dllLock := true }
  else s

/-- DLL_UNLOCK (R326). -/
def State.dllUnlocked (b : Nat) (s : State) : State :=
  let x := s.bench b
  if x.awake && x.dllLock then
    (s.modBench b fun x => { x with dllLock := false, acqN := s.clk.lockN, acqWin := s.clk.lockWin }).raise (1026 + 3 * b) false 0 else s

/-! ## Power states (R331) -/

/-- The code of PSTATE. -/
def PState.code : PState → Nat
  | .off => 0 | .aon => 1 | .idle => 2 | .ready => 3 | .run => 4 | .transit => 5 | .fault => 6

/-- The device is at rest. A job is in flight until its completion is written (R268). -/
def State.atRest (s : State) : Bool :=
  !(s.benches.any fun b => b.2.awake || b.2.waking) &&
  (s.ports.all fun p => p.2.jobs.all fun j => j.type == 9) &&
  (s.acqs.all fun a => a.2.state == .idle || a.2.state == .done) && (s.raes.all fun e => e.2.state != .search) &&
  s.img.stg != .loading && s.img.stg != .checking && s.img.stg != .committing && s.met.rbQueue.isEmpty

/-- The device begins to leave its state for the target. A PLL that is off and is to lock takes up N and WIN (R324). -/
def State.beginTransit (s : State) : State :=
  let s := if s.clk.pllLock then s else s.modClk fun c => { c with acqN := c.lockN, acqWin := c.lockWin }
  (s.modPwr fun p => { p with pstate := .transit }).modTop fun t => { t with cwRun := false, cwOk := false }

/-- An image that a die brought up again must take from its slot: its key slot must still be ACTIVE (R376). Every port is told, as
at a commit (R254, R366). -/
def State.reactivate (s : State) : State :=
  if !s.img.reload then s
  else
    let s := s.modImg fun i => { i with reload := false }
    match s.img.active, s.img.active.bind (·.content) with
    | some c, some i =>
      if (s.keySlot c.keysel.toNat).state = 1 then
        ((s.loadImage i false).modImg fun x => { x with activeValid := true, actHash := Img.hashOf (some c) }).commitNotice
      else (s.modImg fun x => { x with active := none, activeValid := false, actHash := 0 }).modTop fun t =>
        { t with bootDue := true }
    | _, _ => s

/-- A target below the state is followed as soon as the device is at rest. -/
def State.followTarget (s : State) : State :=
  if s.pwr.pstate = .ready ∧ s.pwr.target < 3 ∧ s.atRest then s.beginTransit else s

/-- The boot read of 256 bytes begins to occupy the peripheral port, where it is due and the flash can be read (R297, R365). -/
def State.bootBursts (s : State) : State :=
  if s.top.bootDue && s.ready && s.img.stg == .empty && s.spim.flashMode then s.flashBursts 256 else s

/-- READY is entered: HBM out of self-refresh, FAULT_N and GUY[6] released, the image reactivated where that is due. READY is never
reached without a per-boot key, so one is drawn where there is none; where that fails, READY counts as not reached (R362, R363,
R380). -/
def State.enterReady (keyOk : Bool) (s : State) : State :=
  if s.sec.hbmKey.isNone && !keyOk then
    ((s.modSec fun x => { x with rngFail := true }).modTop fun t => { t with wasReady := false }).raise 1342 false 2
  else
    let s := if s.sec.hbmKey.isSome then s else s.drawKey
    let s := s.modPwr fun p => { p with pstate := .ready, selfRefresh := false, dieUp := true }
    let s := s.modTop fun t => { t with wasReady := true, readyTick := s.now }
    let s := s.modFlt fun f => { f with faultN := false, leaving := false }
    let s := s.modGuy fun g => { g with g6Driving := false }
    s.reactivate.bootBursts.runOrReady.cwBegin.agreeUpdate.followTarget

/-- POWER_TRANSITION_DONE: the next step of a transition that is under way ends. -/
def State.transitDone (keyOk : Bool) (s : State) : State :=
  if s.pwr.pstate ≠ .transit then s
  else match s.pwr.dieUp, s.pwr.target with
    | false, 1 => s.enterAon
    | false, 2 =>
      (s.modPwr fun p => { p with dieUp := true, pstate := .idle }).modFlt fun f => { f with faultN := false }
    | false, _ =>
      let s := (s.modPwr fun p => { p with dieUp := true }).modFlt fun f => { f with faultN := false }
      if s.clk.pllLock then s.enterReady keyOk else s
    | true, 1 => s.enterAon
    | true, 2 =>
      (s.modPwr fun p => { p with pstate := .idle, selfRefresh := true }).modClk fun c => { c with pllLock := false, ran := false }
    | true, _ => if s.clk.pllLock then s.enterReady keyOk else s

/-- A refused write of the PWR block. -/
def State.pwrErr (code : Nat) (s : State) : State := s.modPwr fun p => { p with err := true, errCode := code }

/-- A legal target acts. -/
def State.requestTarget (t : Nat) (s : State) : State :=
  let put (s : State) : State := s.modPwr fun p => { p with target := t }
  match s.pwr.pstate with
  | .aon => if 1 < t ∧ s.top.phase = .up ∧ !s.top.resetLow ∧ !s.top.jtagHold then (put s).beginTransit.fatalLeft else put s
  | .idle => if t = 2 then put s else (put s).beginTransit
  | .ready | .run =>
    if t = 3 then put s else if s.pwr.pstate = .ready ∧ s.atRest then (put s).beginTransit else s.pwrErr 2
  | _ => put s

/-- A write of PWR_CTRL. A refused write changes nothing; the maxima are cleared to the present temperatures. -/
def State.pwrCtrl (v : Word) (s : State) : State :=
  let t := fld v 0 3
  if t = 0 ∨ 4 ≤ t then s.pwrErr 1
  else if (s.pwr.pstate = .run ∨ (s.pwr.pstate = .ready ∧ !s.atRest)) ∧ t < 3 then s.pwrErr 2
  else
    let s := if bit v 31 then s.modPwr fun p => { p with tjMax := p.tj } else s
    s.requestTarget t

/-! ## Local time outside the tick, and the wake timer (R300, R332) -/

/-- Units of 2^−48 ns of local time in one always-on cycle of 31.25 ns. -/
def Time.perCycle (t : Time) : Nat := (125 * 2 ^ 46 + t.rate * 32000).toNat

/-- One always-on cycle with the main PLL unlocked: the holdover counter drifts by at most 2 µs and 5 ppm of the time spent
unlocked, a free value within that, and local time never decreases (R300, R406). -/
def State.holdCycle (s : State) : State :=
  let (v, s) := s.closeRun.free
  let n := s.clk.holdN + 1
  let bound : Nat := 2000 * 2 ^ 48 + n * 125 * 2 ^ 46 * 5 / 1000000
  let err : Int := (v % (2 * bound + 1) : Nat) - (bound : Int)
  let err := max (s.clk.holdErr - s.time.perCycle) err
  let s := s.modTime fun t => t.advance ((t.perCycle : Int) + err - s.clk.holdErr).toNat
  s.modClk fun c => { c with holdN := n, holdErr := err, offCycles := c.offCycles + 1 }

/-- n always-on cycles with the main PLL unlocked. -/
def State.holdCycles (n : Nat) (s : State) : State :=
  (s.closeRun.modTime fun t => t.advance (n * t.perCycle)).modClk fun c => { c with holdN := c.holdN + n, offCycles := c.offCycles + n }

/-- Time passes with no command waiting: one tick of 1.25 ns, or one always-on cycle while the main PLL is unlocked; none
while PORST_N is low (R3, R299, R300; log 1). -/
def State.passes (s : State) : State :=
  if s.top.porstLow then s else if s.clk.pllLock then s.advanceTo (s.now + 1) else s.holdCycle

/-- Local time reaches a value: on the first tick on which it is there, or the first always-on cycle while the main PLL is
unlocked. -/
def State.passLocal (target : Nat) (s : State) : State :=
  let gap := target - s.local
  if s.clk.pllLock then s.advanceTo (s.now + ceilDiv gap (max 1 s.time.perTick))
  else
    s.holdCycles (ceilDiv gap (max 1 s.time.perCycle))

/-- Time reaches a value of State.mono. -/
def State.passMono (target : Nat) (s : State) : State :=
  if s.clk.pllLock then s.advanceTo (s.now + ceilDiv (target - s.mono) 40) else s.holdCycles (ceilDiv (target - s.mono) 1000)

/-- A time of seconds and nanoseconds in units of 2^−48 ns. -/
def timeUnits (sec : BitVec 48) (ns : BitVec 30) : Nat := sec.toNat * secUnits + ns.toNat * 2 ^ 48

/-- The wake timer fires. -/
def State.wakeFires (s : State) : State :=
  let s := s.modPwr fun p => { p with wakeArm := false, fired := true }
  let level := match s.pwr.pstate with
    | .off | .aon => 1
    | .idle => 2
    | .transit => max 1 s.pwr.target
    | _ => 3
  if s.pwr.wtarget ≤ level then s else s.requestTarget s.pwr.wtarget

/-- WAKE_TIMER_FIRE: the armed timer's time comes. -/
def State.wakeTimer (s : State) : State :=
  if s.pwr.wakeArm then (s.passLocal (timeUnits s.pwr.wakeSec s.pwr.wakeNs)).wakeFires else s

/-- A write of PWR_WAKE_CTRL. -/
def State.wakeCtrl (v : Word) (s : State) : State :=
  let w := fld v 0 3
  if w ≠ 2 ∧ w ≠ 3 then s.pwrErr 1
  else
    let s := s.modPwr fun p => { p with wakeArm := bit v 31, fired := p.fired && !bit v 30, wtarget := w }
    if bit v 31 ∧ timeUnits s.pwr.wakeSec s.pwr.wakeNs ≤ s.local then s.wakeFires else s

/-! ## Thermal model (R335 to R338) -/

/-- A write of PWR_TCOOL. -/
def State.tcoolWrite (v : Word) (s : State) : State :=
  if !f32In (f32Int 5) (f32Int 70) v then s.pwrErr 1
  else match if s.img.activeValid then s.img.active.bind (·.content) else none with
    | some i =>
      if (powerBad i v).isSome then s.pwrErr 3 else s.modPwr fun p => { p with tcool := v }
    | none => s.modPwr fun p => { p with tcool := v }

/-- Weight w_ki times 2^149: the three of a region add up to 1 (R336). -/
def weightNum (cls k i : Nat) : Int :=
  let w (n : Nat) : Int := f32Num (Config.weightFuse cls k n)
  if i = 3 then 2 ^ 149 - w 1 - w 2 else w i

/-- State i of region k after an update, as a word: x + (Δt/τ) (w q − x). q is the heating of the region, times 2^298. -/
def thermalStep (cls k i : Nat) (q : Int) (x : Word) : Word :=
  let dt := f32Num (Config.dtOverTauFuse cls k i)
  let w := weightNum cls k i
  f32Round (f32Num x * 2 ^ 447 + dt * (w * q - f32Num x * 2 ^ 298)) (2 ^ 596)

/-- The heating of region k, times 2^298. -/
def heating (cls k : Nat) (ps : List Word) : Int :=
  ps.zipIdx.foldl (fun t p => t + f32Num (Config.thetaFuse cls k p.2) * f32Num p.1) 0

/-- The junction temperatures of the model, times 2^149. -/
def Pwr.temps (p : Pwr) : List Int :=
  (List.range 16).map fun k => f32Num p.tcool + f32Num (tget 0 p.x (4 * k + 1)) + f32Num (tget 0 p.x (4 * k + 2)) +
    f32Num (tget 0 p.x (4 * k + 3))

/-- The model's states after an update with the powers of the regions. -/
def Pwr.update (p : Pwr) (ps : List Word) : Pwr :=
  let x := (List.range 16).foldl (fun t k =>
    let q := heating p.cls k ps
    [1, 2, 3].foldl (fun t i => tput t (4 * k + i) (thermalStep p.cls k i q (tget 0 p.x (4 * k + i)))) t) p.x
  let p := { p with x := x, p := tputList [] 0 ps, total := f32Round ((ps.map f32Num).foldl (· + ·) 0) (2 ^ 149) }
  let ts := p.temps
  let tj := tputList [] 0 (ts.map f32OfNum)
  let mx (k : Nat) : Word :=
    let a := tget 0x42340000 p.tjMax k
    let b := tget 0x42340000 tj k
    if f32Num a < f32Num b then b else a
  { p with tj := tj, tjMax := tputList [] 0 ((List.range 16).map mx) }

/-- A region reaches 125 °C. A latched trip keeps its region until it is cleared. -/
def State.tripRegion (t : Int) (k : Nat) (s : State) : State :=
  if s.pwr.hot.contains k then s
  else
    (s.modPwr fun p => { p with
      hot := k :: p.hot, tripValid := true, tripRegion := if p.tripValid then p.tripRegion else k,
      tripTj := if p.tripValid then p.tripTj else f32OfNum t }).raise (1344 + k) false 0

/-- A source deasserts: it is active no more (R351). -/
def State.sourceOff (src : Nat) (s : State) : State :=
  s.modFlt fun f => { f with active := tdel f.active src }

/-- The end of the FT reaction moves to the deassertion of the last fatal source, or of the last power and thermal source. -/
def State.ftQuietFrom (s : State) : State :=
  if s.pwr.pstate = .fault then s.modFlt fun f => { f with ftFrom := max f.ftFrom s.mono } else s

/-- THERMAL_UPDATE: an update with the measured powers of the 16 regions. -/
def State.thermalUpdate (ps : List Word) (s : State) : State :=
  if s.pwr.pstate = .off ∨ ps.length ≠ 16 ∨ !ps.all f32Finite then s
  else
    let s := s.modPwr fun p => p.update ps
    let ts := s.pwr.temps
    let s := (ts.zipIdx.filter fun t => decide (f32Int 125 ≤ t.1)).foldl (fun s t => s.tripRegion t.1 t.2) s
    if s.pwr.hot ≠ [] ∧ ts.all (fun t => decide (t < f32Int 115)) then
      let s := s.pwr.hot.foldl (fun s k => s.sourceOff (1344 + k)) s
      (s.modPwr fun p => { p with hot := [] }).ftQuietFrom
    else s

end Sys2Proof.Machine
end

