-- ==== Sys2Proof/Machine/Recover.lean ====
section
/-! DEFINITION. The end of faults: deassertion, quiet periods, re-initialisation, release, the fatal exit, and the writes of the FLT block (R346, R350 to R357). -/

namespace Sys2Proof.Machine

/-! ## Deassertion (R351) -/

/-- A UC source attributed to a site is asserted. -/
def State.siteHeld (s : State) (i : Nat) : Bool :=
  s.flt.active.any fun x => s.effClass x.1 == 1 && (s.srcSites x.1).contains i

/-- A source of a channel is asserted. -/
def State.chanHeld (s : State) (b l : Nat) : Bool :=
  s.flt.active.any fun x => x.1 / 2 == 8 * b + l && decide (x.1 < 1024)

/-- A fatal source, or one of power and thermal, is asserted (R354). -/
def State.ftHeld (s : State) : Bool :=
  s.flt.active.any fun x => s.effClass x.1 == 2 || decide (1344 ≤ x.1)

/-- A source is sampled deasserted. -/
def State.sampleOff (src : Nat) (s : State) : State :=
  if (tfind s.flt.active src).isNone then s
  else
    let ft := s.effClass src == 2 || decide (1344 ≤ src)
    let s := s.sourceOff src
    let s := if ft then s.ftQuietFrom else s
    let s := s.each (s.srcSites src) fun i s =>
      if (s.site i).state = .safe ∧ !s.siteHeld i then
        s.modSite i fun x => { x with state := .quiet, quietEnd := max s.mono x.reactEnd + 32000 * x.quietUs }
      else s
    match s.srcLone src with
    | some (b, l) =>
      if s.chanHeld b l then s
      else s.modChan b l fun c => { c with quietFrom := if c.faultHold then some (max s.mono c.reactEnd) else none }
    | none => s

/-- FAULT_SOURCE_DEASSERT. The source of a region over temperature stays asserted until the model ends it (R338). A source that is
not sampled now stays as it was last sampled (R343). -/
def State.deassert (src : Nat) (s : State) : State :=
  let s := s.modFlt fun f => { f with unsampled := tdel f.unsampled src }
  if 1344 ≤ src ∧ s.pwr.hot.contains (src - 1344) then s
  else if s.coreOff ∧ src < 1336 then s.modFlt fun f => { f with dropped := if (tfind f.active src).isSome then src :: f.dropped.erase src else f.dropped }
  else s.sampleOff src

/-- The core clock runs again: the sources that have deasserted since they were last sampled are sampled so (R343). -/
def State.dropAgain (s : State) : State :=
  s.flt.dropped.foldl (fun s x => s.sampleOff x) (s.modFlt fun f => { f with dropped := [] })

/-! ## Sites (R352) -/

/-- The state of a site as FLT_SITE shows it: the quiet period begins at the end of the reaction. -/
def State.siteShown (s : State) (i : Nat) : SiteState :=
  let x := s.site i
  if x.state = .quiet ∧ s.mono < x.reactEnd then .safe else x.state

/-- Code of a site's state. -/
def SiteState.code : SiteState → Nat
  | .normal => 0 | .safe => 1 | .quiet => 2 | .restart => 3 | .latched => 4

/-- A notice of a site's exit or latching. -/
def State.siteNotice (ty i : Nat) (s : State) : State :=
  s.faultNotice ty (s.site i).lastSrc [s.sitePart i] s.now (1 + 4 * (s.site i).recCnt + siteDetail [i])

/-- QUIET_END of a site. In FAULT the fatal fault supersedes the site's state (R350). -/
def State.siteQuietEnd (i : Nat) (s : State) : State :=
  if (s.site i).state ≠ .quiet ∨ s.pwr.pstate = .fault then s
  else
    let s := s.passMono (s.site i).quietEnd
    if (s.site i).recCnt < s.flt.limUc then
      (s.modSite i fun x => { x with state := .restart, recCnt := x.recCnt + 1, releaseAt := none }).siteNotice 0x11 i
    else (s.modSite i fun x => { x with state := .latched }).siteNotice 0x12 i

/-- QUIET_END of a channel that no site holds (R341). -/
def State.chanQuietEnd (b l : Nat) (s : State) : State :=
  match (s.chan b l).quietFrom with
  | none => s
  | some t =>
    (s.passMono (t + 32000 * s.quietUs 0)).modChan b l fun c => { c with faultHold := false, quietFrom := none }

/-- REINIT_DONE: a bench whose DLL was not locked is awake; a site that resumes waits for its release epoch, any other is NORMAL. -/
def State.reinitDone (i : Nat) (s : State) : State :=
  let x := s.site i
  if x.state ≠ .restart ∨ x.releaseAt.isSome ∨ s.pwr.pstate = .fault then s
  else
    let s := s.each (x.cfg.benches.filter fun b => !(s.bench b).dllLock) fun b s =>
      (s.modBench b fun y => if y.awake || y.waking then { y with waking := !y.awake }
        else { y with waking := true, acqN := s.clk.lockN, acqWin := s.clk.lockWin }).dllLocked b
    if x.cfg.resume ∧ (s.gangState x.cfg.gang).running then s.modSite i fun y => { y with releaseAt := some s.nextCut }
    else s.modSite i fun y => { y with state := .normal }

/-- SITE_RELEASE: at the release epoch the site is NORMAL; if its gang still runs, its channels take their settings and event
input 1 is asserted. -/
def State.siteRelease (i : Nat) (s : State) : State :=
  let x := s.site i
  match if s.pwr.pstate = .fault then .normal else x.state, x.releaseAt with
  | .restart, some e =>
    let s := (s.toEpoch e).modSite i fun y => { y with state := .normal, releaseAt := none }
    if (s.gangState x.cfg.gang).running then
      (x.chans.foldl (fun s c => s.leaveSafe c.1 c.2) s).assertEvt (s.lead x.cfg.gang) 1
    else s
  | _, _ => s

/-! ## The fatal exit (R350, R354) -/

/-- The device leaves FAULT: at once with the main PLL locked, else at its next lock. Every site is NORMAL, and a UC source
still asserted then takes its site to SAFE. -/
def State.leaveFault (s : State) : State :=
  if !s.clk.pllLock then s.modFlt fun f => { f with leaving := true }
  else
    let s := s.each s.siteIxs fun i => State.modSite i fun x => { x with state := .normal, releaseAt := none }
    let s := s.enterReady true
    (s.flt.active.filter fun x => s.effClass x.1 == 1).foldl
      (fun s x => s.each (s.srcSites x.1) (State.siteFault x.1)) s

/-- A notice of the device's exit or latching. -/
def State.ftNotice (ty : Nat) (s : State) : State :=
  s.faultNotice ty s.flt.firstSrc (s.partPort.map (·.1)) s.now (2 + 4 * s.flt.recFt)

/-- FT_EXIT. -/
def State.ftExit (s : State) : State :=
  if s.pwr.pstate ≠ .fault ∨ s.ftHeld ∨ s.flt.leaving ∨ s.flt.ftLatched then s
  else
    let s := s.passMono (s.flt.ftFrom + 32000 * s.flt.quietFt)
    if s.flt.recFt < s.flt.limFt then
      ((s.modFlt fun f => { f with recFt := f.recFt + 1 }).ftNotice 0x11).leaveFault
    else (s.modFlt fun f => { f with ftLatched := true }).ftNotice 0x12

/-! ## Register writes (R346, R351, R355, R357) -/

/-- A refused write of the FLT block. -/
def State.fltErr (s : State) : State := s.modFlt fun f => { f with err := true }

/-- CLR_FIRST. -/
def State.clearFirst (s : State) : State := s.modFlt fun f => { f with firstValid := false, overflow := false }

/-- FT_RECOVER of a latched device: it leaves FAULT, or follows R354 anew while a fatal source is asserted. -/
def State.ftRecover (s : State) : State :=
  let s := s.modFlt fun f => { f with ftLatched := false }
  if s.ftHeld then s else s.leaveFault

/-- A write of FLT_CTRL: refused whole when FT_RECOVER or SITE_RECOVER meets any state but the latched one. -/
def State.fltCtrl (v : Word) (s : State) : State :=
  let i := fld v 0 7
  if (bit v 30 ∧ !s.flt.ftLatched) ∨ (bit v 28 ∧ (s.site i).state ≠ .latched) then s.fltErr
  else
    let s := s.modFlt fun f => { f with siteSel := v.extractLsb' 0 7 }
    let s := if bit v 31 then s.clearFirst else s
    let s := if bit v 30 then s.ftRecover else s
    let s := if bit v 29 then s.modFlt fun f => { f with recFt := 0 } else s
    if bit v 28 then s.modSite i fun x => { x with state := .normal } else s

/-- Writes of FLT_QUIET(k), FLT_QUIET_FT and FLT_REC_LIM. -/
def State.fltQuiet (k : Nat) (v : Word) (s : State) : State :=
  if quietOk (fld v 0 17) then s.modFlt fun f => { f with quiet := tput f.quiet k (fld v 0 17) } else s.fltErr
def State.fltQuietFt (v : Word) (s : State) : State :=
  if quietOk (fld v 0 17) then s.modFlt fun f => { f with quietFt := fld v 0 17 } else s.fltErr
def State.fltRecLim (v : Word) (s : State) : State :=
  if fld v 8 5 = 0 ∨ fld v 0 5 = 0 then s.fltErr
  else s.modFlt fun f => { f with limFt := fld v 8 5, limUc := fld v 0 5 }

end Sys2Proof.Machine
end

