-- ==== Sys2Proof/Machine/Clock.lean ====
section
/-! DEFINITION. The reference, the main PLL, SYNC and the CLKOUT outputs (R23, R314, R315, R323 to R329). -/

namespace Sys2Proof.Machine

/-! ## Reference and PLL -/

/-- The main PLL is no longer locked. -/
def State.pllDown (s : State) : State :=
  s.modClk fun c => { c with pllLock := false, unlockSeen := true, acqN := c.lockN, acqWin := c.lockWin }

/-- PLL_UNLOCK: a fatal fault in READY or RUN (R325). -/
def State.pllUnlocked (s : State) : State :=
  if !s.clk.pllLock then s
  else if s.ready then s.pllDown.raise 1328 false 0
  else s.pllDown

/-- REFCLK_LOSS: the PLL is treated as unlocked, and the source of the reference is fatal (R323, R340). -/
def State.refLost (s : State) : State :=
  if !s.clk.refOk then s
  else
    let s := s.modClk fun c => { c with refOk := false, refLossSeen := true }
    let s := s.pllUnlocked
    s.raise 1329 false 0

/-- REFCLK_RETURN. -/
def State.refBack (s : State) : State := s.modClk fun c => { c with refOk := true }

/-- A comparator whose target passed while the PLL was not locked fires LATE after the lock (R312). -/
def State.lateCmps (s : State) : State :=
  s.each (List.range 16) fun i s =>
    let c := s.cmp i
    if c.armed ∧ timeUnits c.sec c.ns ≤ s.local then s.modCmp i fun c => { c with armLate := true } else s

/-- PLL_LOCK: ticks resume, with the epoch counter at its last value and the first tick as the epoch's first (R23, R325). A
device that is leaving FAULT enters READY (R354), and sources that were not sampled are (R343). -/
def State.pllLocked (s : State) : State :=
  let on := match s.pwr.pstate with
    | .transit => s.pwr.dieUp
    | .ready | .run | .fault => true
    | _ => false
  if s.clk.pllLock ∨ !s.clk.refOk ∨ !on then s
  else
    let s := s.closeRun.modClk fun c => { c with pllLock := true, ran := true, phase := 0, holdN := 0, holdErr := 0 }
    let s := s.modGuy fun g => { g with syncDone := false }
    let s := s.lateCmps.dropAgain.sampleAgain
    if s.flt.leaving then s.leaveFault else s

/-! ## SYNC (R314, R329) -/

/-- A valid edge is applied: it sets the epoch phase and restarts every divider. -/
def State.syncApply (s : State) : State :=
  let s := s.closeRun.modClk fun c => { c with
    phase := 0,
    outs := (List.range 8).foldl (fun t i => tmod {} t i fun o =>
      if o.running then { o with phase0 := c.devTick, riseAt := 8 * c.devTick } else { o with phase0 := c.devTick }) c.outs }
  s.modGuy fun g => { g with syncDone := true, syncSeen := true }

/-- SYNC_EDGE: an edge that is applied, only checked, or a slip. -/
def State.syncEdge (s : State) : State :=
  if !s.clk.pllLock || (s.guy.syncSe && !s.top.inArmed.getLsbD 12) then s
  else
    let apply := s.guy.syncEvery || !s.guy.syncDone
    if s.clk.phase = 0 then if apply then s.syncApply else s
    else if apply && !s.anyBusy then s.syncApply
    else s.modGuy fun g => { g with syncSlip := true, slipCnt := g.slipCnt.add 1 }

/-- EPOCH: the next epoch begins (R23). -/
def State.epochBegin (s : State) : State := s.advanceTo (s.now + (256 - s.clk.phase % 256))

/-! ## CLKOUT (R327 to R329) -/

/-- A refused write of the CLK block. -/
def State.clkErr (code : Nat) (s : State) : State := s.modClk fun c => { c with err := true, errCode := code }

/-- The output with EN set on a tick: its first rising edge is the divider's next phase 0. -/
def ClkOut.start (o : ClkOut) (tick : Nat) : ClkOut :=
  let d := max 1 o.div.toNat
  { o with en := true, running := true, riseAt := 8 * o.phase0 + d * ceilDiv (8 * tick - 8 * o.phase0) d }

/-- The output with EN cleared on a tick: it stops after the falling edge of the period in progress. -/
def ClkOut.stop (o : ClkOut) (tick : Nat) : ClkOut :=
  let d := max 1 o.div.toNat
  let from0 := 8 * tick - 8 * o.phase0
  let fall := from0 / d * d + ceilDiv d 2
  { o with en := false, running := false, stopAt := 8 * o.phase0 + max fall from0 }

/-- VCO periods for which an output is high in each of its periods (R327). -/
def ClkOut.high (o : ClkOut) : Nat := ceilDiv o.div.toNat 2

/-- The instant at the ball, in 1/64 qps, of what the divider does at VCO period n: COARSE, FINE and the output latency later
(R327, R329). -/
def ClkOut.atBall (o : ClkOut) (n : Nat) : Nat := 40000 * (n + o.coarse.toNat) + 625 * o.fine.toNat + 64 * Config.clkOutLat

/-- The level of CLKOUT_P at the ball at an instant in 1/64 qps, since the divider's last restart: low until the first rising
edge and, once stopped, after the last falling edge (R327 to R329). CLKOUT_N is its complement. -/
def ClkOut.level (o : ClkOut) (t : Nat) : Bool :=
  let n := (t - o.atBall 0) / 40000
  decide (o.atBall o.riseAt ≤ t) && (o.running || decide (n < o.stopAt)) &&
    decide ((n - 8 * o.phase0) % max 1 o.div.toNat < o.high)

/-- A write of CLK_OUT_CFG(i). -/
def State.clkOutCfg (i : Nat) (v : Word) (s : State) : State :=
  let o : ClkOut := tget {} s.clk.outs i
  let div := fld v 0 10
  let put (f : ClkOut → ClkOut) : State := s.modClk fun c => { c with outs := tmod {} c.outs i f }
  if o.en && div ≠ o.div.toNat then s.clkErr 2
  else if div < 4 ∨ div ≤ o.coarse.toNat then s.clkErr 1
  else if o.en then (if bit v 31 then s else put fun o => o.stop s.now)
  else
    let q : ClkOut := { o with div := BitVec.ofNat 10 div }
    if bit v 31 then put fun _ => q.start s.now else put fun _ => q

/-- A write of CLK_OUT_DLY(i). -/
def State.clkOutDly (i : Nat) (v : Word) (s : State) : State :=
  let o : ClkOut := tget {} s.clk.outs i
  if o.en then s.clkErr 2
  else if o.div.toNat ≤ fld v 6 10 then s.clkErr 1
  else s.modClk fun c => { c with outs := tmod {} c.outs i fun o =>
    { o with coarse := v.extractLsb' 6 10, fine := v.extractLsb' 0 6 } }

/-- A write of CLK_LOCK_CFG. -/
def State.lockCfg (v : Word) (s : State) : State :=
  if fld v 16 16 < 16 ∨ fld v 0 6 = 0 ∨ 40 < fld v 0 6 then s.clkErr 1
  else s.modClk fun c => { c with lockN := v.extractLsb' 16 16, lockWin := v.extractLsb' 0 6 }

end Sys2Proof.Machine
end

