-- ==== Sys2Proof/Machine/Timebase.lean ====
section
/-! DEFINITION. Local time: PTP, the servo, the armed step, PPS, comparators and SCHEDULE (R301 to R312). -/

namespace Sys2Proof.Machine

/-! ## Comparators (R310 to R312) -/

/-- What an armed comparator's ACTION does on its firing tick: status and detail of its job. -/
def State.cmpAct (c : Cmp) (s : State) : Nat × Nat × State :=
  let is := bitsSet 64 c.mask.toNat
  let gs := is.filter fun g => (tfind s.gangs g).isSome
  match c.action with
  | 1 => (stOk, 0, s.each is State.wakeBench)
  | 2 =>
    match s.startBad gs with
    | some (st, d) => (st, d, s)
    | none => (stOk, 0, s.each gs fun g => State.arm g s.nextCut)
  | _ => (stOk, 0, s)

/-- Comparator i fires now. -/
def State.cmpFire (i : Nat) (late : Bool) (s : State) : State :=
  let c := s.cmp i
  let tick := s.now
  let s := s.pulse (168 + i)
  let s := c.evtBenches.foldl (fun s b => s.assertEvt b 5) s
  let (st, d, s) := s.cmpAct c
  let s := s.modCmp i fun c => { c with armed := false, armLate := false, fired := true, late := late }
  s.endJob c.port c.tag st (d + if late then 0x8000 else 0) tick

/-- COMPARATOR_FIRE: the comparator's target comes, or it fires LATE on the tick after it was armed. -/
def State.cmpDue (i : Nat) (s : State) : State :=
  let c := s.cmp i
  if !c.armed || !s.clk.pllLock then s
  else if c.armLate then (s.advanceTo (c.armTick + 1)).cmpFire i true
  else (s.passLocal (timeUnits c.sec c.ns)).cmpFire i false

/-- SCHEDULE arms its comparator. -/
def State.scheduleJob (p : Nat) (tag : BitVec 16) (s : State) : State :=
  s.startJob p tag (·.type == 8) fun j s =>
    let i := fld (j.w 1) 0 4
    let act := fld (j.w 1) 8 2
    let is := bitsSet 64 (j.w64 6)
    let foreign := match act with
      | 1 => is.find? fun b => s.benchOwner b != some p
      | 2 => is.find? fun g => !s.ownsGang p g
      | _ => none
    if s.ownerOf (some (s.cmp i).part) ≠ some p then s.endJob p tag stPartition i 0
    else match foreign with
      | some x => s.endJob p tag stPartition x 0
      | none =>
        if (s.cmp i).armed then s.endJob p tag stState i 0
        else
          let sec := BitVec.ofNat 48 (j.w64 2)
          let ns := BitVec.ofNat 30 (j.w 4).toNat
          (s.jobRuns p tag).modCmp i fun c => { c with
            sec := sec, ns := ns, armed := true, fired := false, late := false, action := act, port := p, tag := tag,
            mask := BitVec.ofNat 64 (j.w64 6), armTick := s.now, armLate := decide (timeUnits sec ns ≤ s.local) }

/-! ## Offsets (R305 to R308) -/

/-- An offset in 2^−48 ns as a word of ns, saturating. -/
def ofsWord (o : Int) : Word := satWord (roundDiv o (2 ^ 48))

/-- Local time set to a value in 2^−48 ns; comparators that the change passes fire LATE on this tick (R311). -/
def State.setLocal (v : Int) (s : State) : State :=
  let n := (v % (2 ^ 48 * secUnits : Nat)).toNat
  let s := s.closeRun.modTime fun t => { t with sec := n / secUnits, nsq := n % secUnits }
  if !s.clk.pllLock then s.lateCmps
  else s.each (List.range 16) fun i s =>
    let c := s.cmp i
    if c.armed && !c.armLate && decide (timeUnits c.sec c.ns ≤ s.local) then s.cmpFire i true else s

/-- The armed step to a value of local time (R305). -/
def State.stepTo (v : Int) (s : State) : State :=
  let step := v - s.local
  let s := s.modTime fun t => { t with
    stepArm := false, integ := 0, quality := 2, refcnt := 0, lastAccept := s.mono }
  (s.setLocal v).noticeAdmin 0x18 0 s.now (ofsWord step).toNat

/-- Denominator of the servo's exact values: 5^9 × 2^73. -/
def servoDen : Nat := 1953125 * 2 ^ 73

/-- 200 ppm in units of 2^−38, rounded down. -/
def rateMax : Int := 54975581

/-- The servo takes an accepted offset (R306). Values are exact; a RATE between two codes takes either, a free choice. -/
def State.servo (o : Int) (k : Nat) (s : State) : State :=
  let t := s.time
  let p := o * 2 ^ (23 - k)
  let integ := t.integ + p / 2 ^ t.ki.toNat
  let exact := -(p / 2 ^ t.kp.toNat + integ)
  let den := 1953125 * 2 ^ 35
  let limited := decide (200 * servoDen < exact.natAbs * 1000000)
  let (n, s) := s.free
  let code := exact / den + if exact % den = 0 then 0 else ((n % 2 : Nat) : Int)
  let rate := max (-rateMax) (min rateMax code)
  s.closeRun.modTime fun t => { t with integ := integ, rate := rate, rateLimit := t.rateLimit || limited }

/-- An offset o in 2^−48 ns arrives, with the sync interval's code (R305 to R308). target is the local time that an armed step
sets. -/
def State.offset (o target : Int) (k : Nat) (s : State) : State :=
  let t := s.time
  let s := s.modTime fun t => { t with ofsLast := o }
  let lim : Int := t.jumpLim.toNat * 2 ^ 48
  if t.stepArm then s.stepTo target
  else if o.natAbs ≤ lim.toNat then
    let good := if o.natAbs ≤ t.lockWin.toNat * 2 ^ 48 then min 16 (t.goodRun + 1) else 0
    (s.servo o k).modTime fun t => { t with
      refcnt := 0, goodRun := good, quality := if good = 16 then 3 else 2, lastAccept := s.mono }
  else
    let near := t.refcnt ≠ 0 ∧ (o - t.ofsRefused).natAbs ≤ lim.toNat
    let n := if near then min 8 (t.refcnt + 1) else 1
    let held := if near then t.ofsRefused else o
    let post := decide (n = 8) && !t.disagree
    let s := s.modTime fun t => { t with
      refused := true, refuseCnt := t.refuseCnt.add 1, ofsRefused := held, quality := 1, refcnt := n,
      disagree := t.disagree || post }
    if post then s.noticeAdmin 0x19 0 s.now (ofsWord held).toNat else s

/-! ## PTP (R302 to R304) -/

/-- A message is from the primary, or from the backup. -/
def State.fromPri (s : State) (id : PtpId) : Bool :=
  s.powered && id.domain == s.time.domain && id.clock == s.time.priId && id.port == s.time.priPort
def State.fromBak (s : State) (id : PtpId) : Bool :=
  s.powered && id.domain == s.time.domain && (s.time.bakId != 0 || s.time.bakPort != 0) && id.clock == s.time.bakId &&
    id.port == s.time.bakPort

/-- A message is from the master in use. -/
def State.fromMaster (s : State) (id : PtpId) : Bool :=
  !s.time.lost && if s.time.master then s.fromBak id else s.fromPri id

/-- MASTER and LOST take values, with a TIME_MASTER notice when they change. -/
def State.setMaster (master lost : Bool) (s : State) : State :=
  if s.time.master = master ∧ s.time.lost = lost then s
  else
    (s.modTime fun t => { t with master := master, lost := lost, exch := none }).noticeAdmin 0x1A 0 s.now
      ((if master then 1 else 0) + if lost then 2 else 0)

/-- The interval with code k, 2^(k − 7) s, in units of State.mono (R302, R306). -/
def announceUnits (k : Nat) : Nat := 32 * 7812500 * 2 ^ k

/-- The code of the sync interval, 1 s where PPS is the source, whose edges come once a second (R308, R309). -/
def Time.interval (t : Time) : Nat := if t.src = 1 then 7 else t.syncCode

/-- OFFSET_AGE_HOLDOVER: 4 sync intervals have passed without an accepted offset (R308). -/
def State.ageHoldover (s : State) : State :=
  if s.time.quality < 2 then s
  else (s.passMono (s.time.lastAccept + 4 * announceUnits s.time.interval)).modTime fun t => { t with quality := 1 }

/-- ANNOUNCE, which carries the announce interval. -/
def State.announce (id : PtpId) (k : Nat) (s : State) : State :=
  if s.fromPri id then (s.modTime fun t => { t with priAnn := some (s.mono, k) }).setMaster false false
  else if s.fromBak id then
    let s := s.modTime fun t => { t with bakAnn := some (s.mono, k) }
    if s.time.master then s.setMaster true false else s
  else s

/-- The instant by which a master whose last Announce is given must have sent another: TMO of its announce intervals. -/
def Time.annLimit (t : Time) (a : Option (Nat × Nat)) : Option Nat := a.map fun x => x.1 + t.tmo.toNat * announceUnits x.2

/-- ANNOUNCE_TIMEOUT: no Announce from the master in use for TMO announce intervals. The backup is usable if it has sent one
within its own (log 101). -/
def State.announceTimeout (s : State) : State :=
  let s := match s.time.annLimit (if s.time.master then s.time.bakAnn else s.time.priAnn) with
    | some t => s.passMono t
    | none => s
  let alive : Bool := !s.time.master && match s.time.annLimit s.time.bakAnn with
    | some t => decide (s.mono < t)
    | none => false
  let hasBak := s.time.bakId != 0 || s.time.bakPort != 0
  s.setMaster hasBak (!alive)

/-- Local time in whole ns, as a hardware timestamp. -/
def State.stamp (s : State) (later : Nat) : Int := ((s.local + later * s.time.perTick) / 2 ^ 48 : Nat)

/-- PTP_SYNC: the arrival is stamped and a Delay_Req departs after a number of ticks. -/
def State.ptpSync (id : PtpId) (origin : Option Int) (corr : Int) (k after : Nat) (s : State) : State :=
  if s.time.src ≠ 0 || !s.fromMaster id then s
  else
    let x : Exchange := { t1 := origin, t2 := s.stamp 0, t3 := s.stamp after, corr1 := corr, id := id }
    s.modTime fun t => { t with exch := some x, syncCode := k }

/-- An exchange is complete once its Sync origin and its Delay_Resp are known, in whichever order, and gives the offset. -/
def State.exchange (x : Exchange) (s : State) : State :=
  match x.t1, x.resp with
  | some t1, some (t4, corr) =>
    let o := ((x.t2 - t1 - x.corr1) - (t4 - corr - x.t3)) * 2 ^ 47
    (s.modTime fun t => { t with exch := none }).offset o (s.local - o) s.time.syncCode
  | _, _ => s.modTime fun t => { t with exch := some x }

/-- FOLLOW_UP: the origin time of a two-step Sync. -/
def State.followUp (id : PtpId) (origin corr : Int) (s : State) : State :=
  match s.time.exch with
  | some x =>
    if s.time.src ≠ 0 || !s.fromMaster id || x.id != id || x.t1.isSome then s
    else s.exchange { x with t1 := some origin, corr1 := x.corr1 + corr }
  | none => s

/-- DELAY_RESP: t4, of the exchange in progress. -/
def State.delayResp (id : PtpId) (t4 corr : Int) (s : State) : State :=
  match s.time.exch with
  | some x =>
    if s.time.src ≠ 0 || !s.fromMaster id || x.id != id || x.resp.isSome then s
    else s.exchange { x with resp := some (t4, corr) }
  | none => s

/-! ## PPS (R309) -/

/-- PPS_EDGE: a falling edge of GUY[7]. -/
def State.ppsEdge (s : State) : State :=
  if !s.guyArmed 7 then s
  else if s.time.src ≠ 1 || !s.powered then s.lineFalls 7
  else
    let s := s.lineFalls 7
    let f : Int := (s.local % secUnits : Nat)
    let o := if 2 * f ≤ secUnits then f else f - secUnits
    s.offset o (s.time.ppsSec.toNat * secUnits : Nat) 7

/-- PPS_OUT: the next whole local second begins. -/
def State.ppsPulse (s : State) : State :=
  if !s.time.ppsOut || s.time.ppsLow || !s.clk.pllLock then s
  else
    let s := s.passLocal (ceilDiv s.local secUnits * secUnits)
    s.modTime fun t => { t with ppsLow := true, ppsEnd := s.now + 800 }

/-- PPS_OUT_END. -/
def State.ppsEnd (s : State) : State :=
  if s.time.ppsLow then (s.advanceTo s.time.ppsEnd).modTime fun t => { t with ppsLow := false } else s

/-! ## Registers (R305, R309, R322) -/

/-- A write of TIME_CTRL. -/
def State.timeCtrl (v : Word) (s : State) : State :=
  if fld v 0 2 = 3 then s
  else s.modTime fun t => { t with
    stepArm := t.stepArm || bit v 31, ppsOut := bit v 2, src := v.extractLsb' 0 2,
    exch := if fld v 0 2 = 0 then t.exch else none }

/-- A write of TIME_JUMP_LIM. -/
def State.jumpLim (v : Word) (s : State) : State :=
  if v.toNat < 100 ∨ 1000000000 < v.toNat then s else s.modTime fun t => { t with jumpLim := v }

/-- A write of TIME_RATE. -/
def State.timeRate (v : Word) (s : State) : State :=
  let r := v.toInt
  if s.time.src ≠ 2 ∨ rateMax < r ∨ r < -rateMax then s else s.closeRun.modTime fun t => { t with rate := r }

/-- A write of TIME_SERVO. -/
def State.timeServo (v : Word) (s : State) : State :=
  s.modTime fun t => { t with lockWin := v.extractLsb' 16 16, ki := v.extractLsb' 8 4, kp := v.extractLsb' 0 4 }

/-- A write of TIME_PTP_CFG. -/
def State.ptpCfg (v : Word) (s : State) : State :=
  if fld v 8 4 < 2 then s
  else s.modTime fun t => { t with
    domain := v.extractLsb' 16 8, tmo := v.extractLsb' 8 4, transport := bit v 1, phy := bit v 0 }

end Sys2Proof.Machine
end

