-- ==== Sys2Proof/Machine/Metrology.lean ====
section
/-! DEFINITION. The metrology island: reference check, readbacks, the MET port, the calibration session, resets and the mirror (R214 to R224, R364). -/

namespace Sys2Proof.Machine

/-! ## References and readbacks (R214, R216, R217) -/

/-- REF_CHECK: REFA − REFB is measured. -/
def State.refCheck (d : Word) (s : State) : State :=
  if !s.met.running || !f32Finite d then s
  else s.modMet fun m => { m with
    refDiff := d, refDisagree := m.refDisagree || decide (2 ^ 149 < (f32Num d).natAbs * 10000) }

/-- The code with which a request is refused, 0 for none. -/
def State.rbCode (s : State) (p : Nat) : Nat :=
  let r : Readback := tget {} s.met.rb p
  let node := fld r.sel 24 8
  let ix := fld r.sel 0 9
  if r.busy then 1
  else if 0xF ≤ node then 3
  else if node ≤ 9 then (if s.benchOwner (ix / 8) = some p then 0 else 2)
  else if node ≤ 0xB then (if ix < 64 ∧ s.monOwner ix = some p then 0 else 2)
  else 0

def State.modRb (p : Nat) (f : Readback → Readback) (s : State) : State :=
  s.modMet fun m => { m with rb := tmod {} m.rb p f }

/-- A write of MET_RB_CTRL(p): requests are served in the order of their START writes, those of one tick in port order. -/
def State.rbCtrl (p : Nat) (v : Word) (s : State) : State :=
  if !bit v 0 then s.modRb p fun r => { r with avg := v.extractLsb' 1 4 }
  else
    let c := s.rbCode p
    if c ≠ 0 then s.modRb p fun r => { r with refused := true, errCode := c }
    else
      let sel := (tget {} s.met.rb p : Readback).sel
      let now := s.now
      let s := s.modRb p fun r => { r with avg := v.extractLsb' 1 4, busy := true }
      s.modMet fun m => { m with
        rbStart := if m.rbQueue = [] then now else m.rbStart,
        rbQueue := sortOn (fun e => 8 * e.2.2.2 + e.1) (m.rbQueue ++ [(p, sel, fld v 1 4, now)]) }

/-- The table of the main converter for a node: its own, that of its 16 V range, REFA's or REFB's (R218; log 98). -/
def mainTable (node ix : Nat) : Nat :=
  if node = 0xC then 8322 else if node = 0xD then 8323 else if Config.mainWide node ix then 8321 else 8320

/-- The mean of the main converter's raw codes for a node (R217, R218, R220): 2^AVG of them, those that the command does not
carry being free. -/
def State.mainResult (node ix avg : Nat) (codes : List (BitVec 24)) (s : State) : Word × State :=
  let t := mainTable node ix
  let c := if s.met.storeBad then nominal (f32Num (Config.nominalGain t)) else coefOf s.storeWord t
  let (cs, s) := s.fillCodes (2 ^ avg) codes
  (codeMean 24 c (cs.map (·.toNat)), s)

/-- The grid point of values that the main converter has just taken: the latest (R198, R224; log 98). -/
def State.gridPoint (s : State) : Nat := s.grid / 800 * 800

/-- READBACK_DONE: the request in service ends with its mean. -/
def State.rbDone (codes : List (BitVec 24)) (s : State) : State :=
  match s.met.rbQueue with
  | [] => s
  | (p, sel, avg, _) :: r =>
    if !s.met.running then s
    else
      let s := s.advanceTo (s.met.rbStart + ticksNs (100000 + 2 ^ avg * 20000))
      let (v, s) := s.mainResult (fld sel 24 8) (fld sel 0 9) avg codes
      let ws := s.blockWords s.met.blockSeq s.gridPoint [(fld sel 24 8, fld sel 0 9, v)]
      let t := s.tag ws
      let flags := s.blockFlags
      let s := s.modRb p fun x => { x with
        value := v, seq := wd s.met.blockSeq, flags := flags, tick := BitVec.ofNat 64 s.gridPoint,
        tag := join64 (t.getD 1 0) (t.getD 0 0), busy := false, done := true }
      (s.modMet fun m => { m with blockSeq := m.blockSeq + 1, rbQueue := r, rbStart := s.now }).notice p 0x08 p s.now 0

/-! ## Frames of the MET port (R222) -/

/-- The bytes of a word, most significant first. -/
def wordMsb (w : Word) : List Byte := (bytesOf 4 w.toNat).reverse

/-- A frame's host bytes before its CRC. -/
def hostBytes (cmd : Nat) (addr : BitVec 24) (data : List Word) : List Byte :=
  BitVec.ofNat 8 cmd :: (bytesOf 3 addr.toNat).reverse ++ data.flatMap wordMsb

/-- The status byte. When BUSY is set is not stated: a free value. -/
def State.metStatus (refused : Bool) (s : State) : Byte × State :=
  let (n, s) := s.free
  let b (c : Bool) (k : Nat) : Nat := if c then 2 ^ k else 0
  let e := s.met.crcErr
  (BitVec.ofNat 8 (b (!e && !refused) 0 + b e 1 + b refused 2 + b (s.met.sealState == .session) 3 + b (n.testBit 0) 4), s)

/-- A whole frame is answered with its status and, where words are returned, their bytes and a CRC. -/
def State.metAnswer (refused : Bool) (words : Option (List Word)) (s : State) : State :=
  let (st, s) := s.metStatus refused
  let bs := st :: (match words with
    | some ws => ws.flatMap wordMsb
    | none => [])
  s.modMet fun m => { m with crcErr := false, response := if words.isSome then bs ++ [crc8 bs] else bs }

/-- A frame of the host with a CRC: discarded where the CRC is wrong, else refused or carried out. -/
def State.metFrame (cmd : Nat) (addr : BitVec 24) (data : List Word) (crc : Byte) (ok : Bool) (f : State → State)
    (s : State) : State :=
  if !s.met.running then s
  else if crc8 (hostBytes cmd addr data) ≠ crc then
    (s.metAnswer false none).modMet fun m => { m with crcErr := true }
  else
    let t := s.metAnswer (!ok) none
    if ok then f t else t

/-- MET_FRAME_ABORT. -/
def State.metAbort (s : State) : State := if s.met.running then s.modMet fun m => { m with crcErr := true } else s

/-- The digital die is in reset, as the metrology die sees it: PORST_N or RESET_N is low (R215, R223). -/
def State.dieReset (s : State) : Bool := s.top.porstLow || s.top.resetLow

/-! ## Words (R218, R221; log 24 for the addresses above 0x80_0000) -/

def nonceAddr : Nat := 0x800020
def respAddr : Nat := 0x800024
def newKeyAddr : Nat := 0x800028

/-- Words of the store. -/
def storeTop : Nat := 0x41080

/-- Seal state codes. -/
def SealState.code : SealState → Nat
  | .sealed => 0 | .session => 1 | .locked => 2

/-- A word as READ returns it, none where no word is. The new key reads zero (R382). -/
def State.metWord (s : State) (a : Nat) : Option Word :=
  let m := s.met
  if a < storeTop then some (s.storeWord a)
  else if a < 0x800000 then none
  else match a - 0x800000 with
    | 0 => some m.sealCnt
    | 1 => some (wd m.sealState.code)
    | 2 => some (flag m.aborted 0)
    | 3 => some m.labId
    | 4 => some (wordOf m.calTime.toNat 0)
    | 5 => some (wordOf m.calTime.toNat 1)
    | 14 => some (wd m.authFail)
    | 15 => some (lo32 Config.devSn)
    | 16 => some (hi32 Config.devSn)
    | k =>
      if 6 ≤ k ∧ k < 14 then some (wordOf m.tableDigest.toNat (k - 6))
      else if 0x20 ≤ k ∧ k < 0x24 then some (wordOf m.nonce.toNat (k - 0x20))
      else if 0x24 ≤ k ∧ k < 0x28 then some (tget 0 m.resp (k - 0x24))
      else if 0x28 ≤ k ∧ k < 0x30 then some 0
      else none

/-- A fresh NONCE (R223). -/
def State.freshNonce (s : State) : State :=
  let (n, s) := s.free
  s.modMet fun m => { m with nonce := BitVec.ofNat 128 n, nonceUsed := false }

/-- READ. -/
def State.metRead (addr n : Nat) (s : State) : State :=
  if !s.met.running then s
  else
    let as := (List.range n).map (addr + ·)
    let s := if s.met.sealState = .sealed ∧ as.any (fun a => nonceAddr ≤ a && a < respAddr) then s.freshNonce else s
    s.metAnswer (as.any fun a => (s.metWord a).isNone) (some (as.map fun a => (s.metWord a).getD 0))

/-- WRITE is allowed at a word address. -/
def State.metWritable (s : State) (a : Nat) : Bool :=
  if a < storeTop then s.met.sealState == .session
  else if respAddr ≤ a ∧ a < newKeyAddr then s.met.sealState == .sealed
  else newKeyAddr ≤ a && a < newKeyAddr + 8 && s.met.sealState == .session

/-- A word of a store replaced; a word equal to the factory's is not listed. -/
def storePut (t : Tab Word) (a : Nat) (v : Word) : Tab Word := if v = Config.storeWord a then tdel t a else tput t a v

/-- One word written. -/
def Met.put (m : Met) (a : Nat) (v : Word) : Met :=
  if a < storeTop then { m with shadow := storePut m.shadow a v }
  else if a < newKeyAddr then { m with resp := tput m.resp (a - respAddr) v }
  else { m with newKeyWords := tput m.newKeyWords (a - newKeyAddr) v }

/-- WRITE: refused whole where a word of it is not allowed. -/
def State.metWrite (addr : BitVec 24) (data : List Word) (crc : Byte) (s : State) : State :=
  let ok := data.zipIdx.all fun x => s.metWritable (addr.toNat + x.2)
  s.metFrame 2 addr data crc ok fun s => s.modMet fun m => data.zipIdx.foldl (fun m x => m.put (addr.toNat + x.2) x.1) m

/-! ## The calibration session (R223) -/

/-- The response that opens a session: bytes 0 to 15, as a number. -/
def Met.expected (m : Met) : Nat :=
  (Config.hmacSha256 m.sealKey
    (bytesOf 16 m.nonce.toNat ++ bytesOf 8 Config.devSn.toNat ++ bytesOf 4 m.sealCnt.toNat)).toNat % 2 ^ 128

/-- MET_RESP as a number. -/
def Met.respNat (m : Met) : Nat :=
  (List.range 4).foldl (fun n i => n + (tget 0 m.resp i).toNat * 2 ^ (32 * i)) 0

/-- OPEN. -/
def State.openSession (addr : BitVec 24) (crc : Byte) (s : State) : State :=
  let ok := s.met.sealState == .sealed && s.met.calEn && s.dieReset
  s.metFrame 3 addr [] crc ok fun s =>
    if !s.met.nonceUsed ∧ s.met.respNat = s.met.expected then
      s.modMet fun m => { m with
        sealState := .session, sealCnt := m.sealCnt + 1, authFail := 0, shadow := m.store, newKeyWords := [],
        nonceUsed := true }
    else
      s.freshNonce.modMet fun m => { m with
        authFail := m.authFail + 1, sealState := if 16 ≤ m.authFail + 1 then .locked else .sealed }

/-- CLOSE: the shadow becomes the store, and the record is sealed. A new key is installed when all its words were written. -/
def State.closeSession (addr : BitVec 24) (data : List Word) (crc : Byte) (s : State) : State :=
  s.metFrame 4 addr data crc (s.met.sealState == .session && data.length == 3) fun s =>
    s.modMet fun m => { m with
      sealState := .sealed, store := m.shadow, tableDigest := Config.storeDigest m.shadow, labId := data.getD 0 0,
      calTime := BitVec.ofNat 48 ((data.getD 1 0).toNat + (data.getD 2 0).toNat * 2 ^ 32),
      sealKey := if m.newKeyWords.length = 8 then
          BitVec.ofNat 256 (m.newKeyWords.foldl (fun n w => n + w.2.toNat * 2 ^ (32 * w.1)) 0) else m.sealKey,
      aborted := false, shadow := [], newKeyWords := [] }

/-- A session in progress ends as ABORT does. -/
def State.sessionAbort (s : State) : State :=
  if s.met.sealState = .session then
    s.modMet fun m => { m with sealState := .sealed, aborted := true, shadow := [], newKeyWords := [] }
  else s

/-- ABORT. -/
def State.abortFrame (addr : BitVec 24) (crc : Byte) (s : State) : State :=
  s.metFrame 5 addr [] crc (s.met.sealState == .session) State.sessionAbort

/-- CAL_EN goes low. -/
def State.calEnLow (s : State) : State := (s.modMet fun m => { m with calEn := false, calEnArmed := true }).sessionAbort

/-- MEASURE: node and index in the first data word as in MET_RB_SEL, AVG in the second; the block of one value is returned. A
node or monitor that does not exist is refused (R4, R216). With the digital die in reset TICK is 0 (R224). -/
def State.measureFrame (addr : BitVec 24) (data : List Word) (codes : List (BitVec 24)) (crc : Byte) (s : State) : State :=
  let sel := data.getD 0 0
  let node := fld sel 24 8
  let ix := fld sel 0 9
  let avg := (data.getD 1 0).toNat
  let ok := data.length == 2 && decide (node < 0xF) && decide (avg < 16) && !(decide (0xA ≤ node ∧ node ≤ 0xB ∧ 64 ≤ ix))
  if !s.met.running then s
  else if crc8 (hostBytes 6 addr data) ≠ crc then
    (s.metAnswer false none).modMet fun m => { m with crcErr := true }
  else if !ok then s.metAnswer true none
  else
    let s := s.advanceTo (s.now + ticksNs (100000 + 2 ^ avg * 20000))
    let (v, s) := s.mainResult node ix avg codes
    let ws := s.blockWords s.met.blockSeq (if s.dieReset then 0 else s.gridPoint) [(node, ix, v)]
    (s.metAnswer false (some (ws ++ s.tag ws))).modMet fun m => { m with blockSeq := m.blockSeq + 1 }

/-! ## Resets of the metrology die (R215, R220, R223) -/

/-- The die is reset: a session ends, and what is volatile is lost. -/
def State.metDown (s : State) : State :=
  s.sessionAbort.modMet fun m => { m with
    running := false, crcErr := false, response := [], resp := [], nonceUsed := true, refDisagree := false, refDiff := 0,
    blockSeq := 0, calEn := false, calEnArmed := false, storeBad := false }

/-- RESET: only while PORST_N or RESET_N is low. Its status byte has been returned. -/
def State.metReset (addr : BitVec 24) (crc : Byte) (s : State) : State :=
  s.metFrame 0xF addr [] crc s.dieReset fun s => s.metDown.modMet fun m => { m with response := s.met.response }

/-- VMET5 or VMET18 is removed. -/
def State.vmetLoss (s : State) : State := s.metDown.modMet fun m => { m with supplyLost := true }

/-- METROLOGY_RESET_DONE: the die answers again, its store checked; a power-up unlocks a LOCKED seal. -/
def State.metUp (s : State) : State :=
  if s.met.running then s
  else s.modMet fun m =>
    let unlock := m.supplyLost && m.sealState == .locked
    { m with
      running := true, supplyLost := false, storeBad := Config.storeDigest m.store != m.tableDigest,
      sealState := if unlock then .sealed else m.sealState, authFail := if unlock then 0 else m.authFail }

/-! ## The mirror (R219, R364) -/

/-- The mirror step of start-up ends without a mirror: nominal conversion, and a mirror event. -/
def State.mirrorFail (s : State) : State :=
  ((s.modMet fun m => { m with mirrorBad := true, mirrorOk := false }).modTop fun t =>
    { t with mirrorDone := true }).noticeAdmin 0x0A 0 s.now 0 |>.cwBegin

/-- MIRROR_LOAD: the store is received, but for words received wrong; two retries follow a failed try. -/
def State.mirrorLoad (wrong : List (Nat × Word)) (s : State) : State :=
  if s.top.mirrorDone || !s.ready || !s.met.running then s
  else
    let got := wrong.foldl (fun t w => storePut t w.1 w.2) s.met.store
    if Config.storeDigest got = s.met.tableDigest then
      ((s.modMet fun m => { m with mirror := got, mirrorOk := true, mirrorBad := false, mirrorTries := 0 }).modTop fun t =>
        { t with mirrorDone := true }).cwBegin
    else if 2 ≤ s.met.mirrorTries then s.mirrorFail
    else s.modMet fun m => { m with mirrorTries := m.mirrorTries + 1 }

/-- MET_ANSWER_TIMEOUT. -/
def State.metTimeout (s : State) : State :=
  if s.top.mirrorDone || !s.ready || s.met.running then s
  else (s.advanceTo (s.top.readyTick + 8000000)).mirrorFail

/-! ## Registers (R226) -/

/-- MET_STATUS. -/
def Met.statusWord (m : Met) : Word :=
  flag m.mirrorBad 31 ||| flag m.storeBad 30 ||| flag m.refDisagree 29 ||| flag m.aborted 28 |||
    at' (m.authFail % 256) 8 ||| wd m.sealState.code

end Sys2Proof.Machine
end

