-- ==== Sys2Proof/Machine/Trigger.lean ====
section
/-! DEFINITION. The trigger inputs and outputs, the software trigger and the TRIGX registers (R193 to R197, R213, R368). -/

namespace Sys2Proof.Machine

/-- An edge of TRIG_IN[i] that its EDGE field selects: rising, falling or both (R195). -/
def Trigx.selects (x : Trigx) (i : Nat) (rising : Bool) : Bool :=
  match bitsOf x.edge.toNat (2 * i) 2 with
  | 0 => false
  | 1 => rising
  | 2 => !rising
  | _ => true

/-- Bit i of an 4-bit level set. -/
def setBit4 (v : BitVec 4) (i : Nat) (b : Bool) : BitVec 4 :=
  let m := BitVec.ofNat 4 (2 ^ i)
  if b then v ||| m else v &&& ~~~m

/-- TRIG_IN_EDGE: an armed input changes its level; a selected edge pulses source i after the 2 ticks of input
synchronisation (R32). A level that has not lasted 2 ticks is not seen: the edge that began it no longer pulses, and the next
edge counts against the level before it (R195). -/
def State.trigInEdge (i : Nat) (rising : Bool) (s : State) : State :=
  if !s.top.inArmed.getLsbD i || s.top.trigLevel.getLsbD i == rising then s
  else
    let x : TrigIn := tget {} s.trigx.ins i
    let brief : Bool := match x.edgeAt with
      | some e => decide (s.now < e + 2)
      | none => false
    let stable := if brief then x.stable else !rising
    let gone (p : Nat × Nat × Nat) : Bool := brief && p.2.2 == i && some p.1 == x.edgeAt.map (· + 6)
    let s := (s.modTop fun t => { t with trigLevel := setBit4 t.trigLevel i rising }).modTrigx fun y => { y with
      ins := tput y.ins i { edgeAt := some s.now, stable := stable }, inflight := y.inflight.filter fun p => !gone p }
    if s.clk.pllLock && stable != rising && s.trigx.selects i rising then s.pulseIn 2 i else s

/-- The level of TRIG_OUT[i]: high while active, or low while active where OPOL[i] is 1 (R196). -/
def Trigx.outLevel (x : Trigx) (i : Nat) : Bool := (tget {} x.outs i : TrigOut).active != x.opol.getLsbD i

/-- GUY_TRIGGER_EDGE: the falling edge of GUY[2 + i] pulses source 4 + i (R195, R196). -/
def State.guyTriggerEdge (i : Nat) (s : State) : State :=
  if !s.guyArmed (2 + i) then s
  else if s.clk.pllLock then (s.lineFalls (2 + i)).pulseIn 2 (4 + i) else s.lineFalls (2 + i)

/-- A write of TRIGX_SWTRIG: the writer's source pulses on the next tick, over MSPI that of the administrator port
(R193, R197). -/
def State.swTrig (w : Who) (v : Word) (s : State) : State :=
  if !bit v 0 then s
  else
    let p := match w with
      | .port p => p.val
      | .mspi => s.top.adminPort
    s.pulseIn 1 (184 + p)

/-- TRIG_OUT_END: the active time of an output driven by the matrix ends (R196). -/
def State.trigOutEnd (i : Nat) (s : State) : State :=
  let o : TrigOut := tget {} s.trigx.outs i
  if !o.active then s
  else
    let s := s.advanceTo o.endTick
    s.modTrigx fun x => { x with outs := tmod {} x.outs i fun p =>
      if p.endTick = o.endTick then { p with active := false } else p }

/-- A write of TRIGX_IO_CFG: TW of zero is refused, and changes nothing. -/
def State.ioCfg (v : Word) (s : State) : State :=
  if fld v 16 8 = 0 then s
  else s.modTrigx fun x => { x with
    tw := v.extractLsb' 16 8, opol := v.extractLsb' 12 4, edge := v.extractLsb' 0 8 }

/-- The destination whose registers an access to those of destination d reaches: the WAIT_TRIG input of a gang is its lead
bench's (R117). -/
def State.destOf (s : State) (d : Nat) : Nat := if d < 64 then s.leadOf d else d

/-- A write of TRIGX_DEST(d). -/
def State.destWrite (d : Nat) (v : Word) (s : State) : State :=
  s.modTrigx fun x => { x with en := tput x.en (s.destOf d) (bit v 0) }

/-- TRIGX_ROUTE(d, i): the sources that destination d selects. -/
def Trigx.routeWord (x : Trigx) (d i : Nat) : Word :=
  (tget [] x.routes d).foldl (fun w n => if n / 32 = i then w ||| flag true (n % 32) else w) 0

end Sys2Proof.Machine
end

