-- ==== Sys2Proof/Machine/Startup.lean ====
section
/-! DEFINITION. Resets, start-up, boot, the Schmitt inputs and Contact Watch (R358 to R373, R400). -/

namespace Sys2Proof.Machine

/-! ## Cold and warm reset (R358 to R363, R366) -/

/-- PORST_N is low: the device is in OFF (R330). Fuses, the metrology die and what is outside the device are kept; with its key gone,
HBM content is lost (R381). RESET_N stays as it is. -/
def State.coldReset (s : State) : State :=
  let s := s.secReset.loseKey
  { pending := s.pending, freeCtr := s.freeCtr, hbm := s.hbm, hbmPast := s.hbmPast, sec := s.sec, met := s.met.digitalReset,
    flt := { faultN := true }, pwr := { pstate := .off },
    top := { porstLow := true, resetLow := s.top.resetPin, resetPin := s.top.resetPin, bifStrap := s.top.bifStrap, adminStrap := s.top.adminStrap, adminPort := s.top.strapped,
             jtag := s.top.jtag, jtagHold := s.top.jtagHold, boundary := s.top.boundary, tdo := s.top.tdo },
    ports := s.ports.map fun p => (p.1, p.2.reset) }

/-- COLD_STARTUP: PORST_N rises and fuse load begins (R362). Where RESET_N is low still, the device is in warm reset from then on,
in which FAULT_N keeps its state (R358, R360; log 121); else a calibration session that is open ends (R223). -/
def State.coldStartup (s : State) : State :=
  if s.top.porstLow ∨ s.top.phase = .held then
    let s := (s.modTop fun t => { t with porstLow := false, phase := .fuses }).modPwr fun p => { p with pstate := .aon }
    if s.top.resetLow then s.modTop fun t => { t with causeWarm := true }
    else (s.modFlt fun f => { f with faultN := false }).sessionAbort
  else s

/-- The device, out of reset with its fuses loaded, starts towards READY (R362, R366). -/
def State.restart (s : State) : State :=
  if s.top.phase = .up ∧ !s.dieReset ∧ !s.top.jtagHold then s.requestTarget 3 else s

/-- FUSE_LOAD_DONE: TARGET becomes READY; a failed load keeps the device in AON (R363). -/
def State.fuseLoadDone (ok : Bool) (s : State) : State :=
  if s.top.phase ≠ .fuses then s
  else if ok then (s.modTop fun t => { t with phase := .up }).restart
  else s.raise 1342 false 1

/-- RESET_N is low, by the pin or by TOP_RESET. With PORST_N low besides, the reset stays cold (R358). -/
def State.warmPulse (soft : Bool) (s : State) : State :=
  if s.top.porstLow then (if soft then s else s.modTop fun t => { t with resetLow := true, resetPin := true })
  else s.warmReset.modTop fun t => { t with
    resetLow := true, resetPin := t.resetPin || !soft, causeSoft := t.causeSoft || soft, causeWarm := t.causeWarm || !soft }

/-- WARM_STARTUP: RESET_N rises. -/
def State.warmStartup (s : State) : State :=
  if !s.top.resetLow then s
  else
    let s := s.modTop fun t => { t with resetLow := false, resetPin := false }
    if s.top.porstLow then s else s.sessionAbort.restart

/-! ## Partition reset (R361) -/

/-- Partition q is reset: its port's jobs, a FENCE among them, end with ABORTED before its gangs stop. -/
def State.resetPart (q : Nat) (s : State) : State :=
  let s := match s.portOf q with
    | some p => s.abortJobs p fun _ => true
    | none => s
  let s := s.holdPart q 1
  let gs := s.gangIxs.filter fun g => (s.gang g).cfg.partition = q
  let s := (gs.filter fun g => (s.gangState g).busy).foldl (fun s g => s.gangEnds g .stopped) s
  let bs := (List.range 64).filter fun b => s.benchPart b = some q
  let s := s.each bs fun b => State.modBench b fun x => { x with stgItems := [], stgOvf := false }
  let s := s.each (s.siteIxs.filter fun i => s.sitePart i = q) fun i =>
    State.modSite i fun x => { x with state := .normal, recCnt := 0, releaseAt := none }
  (s.each bs State.gateBench).runOrReady.cwBegin

/-- A write of TOP_PART_RESET. -/
def State.partReset (v : Word) (s : State) : State := s.each ((List.range 4).filter fun p => bit v p) State.resetPart

/-! ## Boot (R365) -/

/-- The boot's read burst ends (R297, R365). -/
def State.bootBurstEnd (s : State) : State :=
  match s.spim.flashFrom with
  | some t =>
    let t := if s.spim.cur.isSome then max t (s.spim.curEnd + 32) else t
    (s.advanceTo (t + s.spim.burstsTicks s.spim.flashLeft 1 - 32)).flashEnd
  | none => s

/-- BOOT: the first 256 bytes of the flash, of which MAGIC and LENGTH_LO matter here, have been read in READY. -/
def State.bootRead (header : Option (Word × Word)) (s : State) : State :=
  if !s.top.bootDue || !s.ready || s.img.stg != .empty then s
  else
    let s := s.bootBurstEnd.modTop fun t => { t with bootDue := false }
    match header with
    | some (m, n) =>
      if m = 0x47524A46 then
        (s.modTop fun t => { t with bootCode := 1, booting := true }).loadBegin true 0 n.toNat
      else s.modTop fun t => { t with bootCode := 3 }
    | none => s.modTop fun t => { t with bootCode := 3 }

/-! ## Inputs (R368) -/

/-- Input k of TOP_IN_ARMED arms. -/
def State.armInput (k : Nat) (s : State) : State :=
  s.modTop fun t => { t with inArmed := t.inArmed ||| BitVec.ofNat 13 (2 ^ k) }

/-- INPUT_ARM: an input reads its first valid level, which is not an edge. For an input that has armed already and whose
edges no other command reports, a level it has since taken. -/
def State.inputArm (pin : InPin) (high : Bool) (s : State) : State :=
  match pin with
  | .calEn =>
    if !s.met.running then s
    else if high then s.modMet fun m => { m with calEn := true, calEnArmed := true }
    else s.calEnLow
  | .trigIn i =>
    if !s.pwr.dieUp || s.top.inArmed.getLsbD i.val then s
    else (s.armInput i.val).modTop fun t => { t with trigLevel := setBit4 t.trigLevel i.val high }
  | .guy i =>
    if !s.pwr.dieUp then s
    else ((s.armInput (4 + i.val)).modGuy fun g => { g with level := setBit8 g.level i.val high }).agreeUpdate
  | .sync => if !s.pwr.dieUp then s else s.armInput 12

/-! ## Contact Watch (R369 to R372) -/

/-- Ticks between scans. -/
def cwPeriod : Nat := 8000000

/-- Tick of the next scan: the first scan comes on the first multiple at least 1 ms after the start. -/
def State.cwNext (s : State) : Nat := cwPeriod * (ceilDiv (s.top.cwStart + 800000) cwPeriod + s.top.cwScans.toNat)

/-- Class of a value: 1 OPEN, 2 CONTACT, 3 SHORT, 0 UNSETTLED. -/
def cwClassOf (v : Word) : Nat :=
  if !f32Finite v then 0
  else if f32Num v < f32Dec (-12) 10 then 1
  else if f32Dec (-9) 10 ≤ f32Num v ∧ f32Num v ≤ f32Dec (-2) 10 then 2
  else if f32Dec (-1) 10 < f32Num v then 3
  else 0

/-- Channel c is excluded from CW_OK. -/
def Top.cwMasked (t : Top) (c : Nat) : Bool := bit (tget 0 t.cwMask (c / 32)) (c % 32)

/-- Unmasked channels of a class. -/
def Top.cwCount (t : Top) (k : Nat) : Nat :=
  ((List.range 512).filter fun c => !t.cwMasked c && tget 0 t.cwClass c == k).length

/-- The values of a scan from channel c on: the mean of the 64 samples of each channel, as the metrology die converts their codes
under the settings of Contact Watch (R53, R370; log 113), a free value where they are not given. -/
def State.cwValues (c : Nat) : Nat → List (List (BitVec 18)) → State → List Word × State
  | 0, _, s => ([], s)
  | n + 1, ks, s =>
    let k := ks.headD []
    let (v, s) := if k.length = 64 then (s.adcResult (c / 8) (c % 8) k, s) else let (m, s) := s.free; (wd m, s)
    let (r, s) := State.cwValues (c + 1) n ks.tail s
    (v :: r, s)

/-- CW_OK is released when no unmasked channel is OPEN or SHORT. -/
def Top.cwJudge (t : Top) : Top := { t with cwOk := t.cwRun && t.cwScanned && t.cwCount 1 == 0 && t.cwCount 3 == 0 }

/-- CW_SCAN: the scan's tick comes, and each channel is classed by the mean of the 64 samples that end on it. -/
def State.cwScan (codes : List (List (BitVec 18))) (s : State) : State :=
  if !s.top.cwRun || !s.clk.pllLock then s
  else
    let s := s.advanceTo s.cwNext
    let (vs, s) := s.cwValues 0 512 codes
    s.modTop fun t => Top.cwJudge { t with
      cwV := tputList [] 0 vs, cwClass := tputList [] 0 (vs.map cwClassOf), cwScanned := true, cwScans := t.cwScans + 1 }

/-- TOP_CW_STATUS. -/
def Top.cwStatus (t : Top) : Word :=
  if t.cwScanned then flag t.cwRun 31 ||| flag true 30 ||| at' (t.cwCount 1) 20 ||| at' (t.cwCount 3) 10 ||| wd (t.cwCount 0)
  else flag t.cwRun 31

/-- TOP_CW_CLASS(i). -/
def Top.classWord (t : Top) (i : Nat) : Word :=
  (List.range 16).foldl (fun w j => w ||| at' (tget 0 t.cwClass (16 * i + j)) (2 * j)) 0

/-! ## Supply (R400) -/

/-- VAON_EXCURSION: below 0.60 V it acts as PORST_N low. -/
def State.vaon (below : Bool) (s : State) : State :=
  if below then s.coldReset else if s.top.porstLow then s else s.raise 1341 false 0

/-! ## Detections by the collector (R343, R344) -/

/-- FAULT_DETECT and RAIL_FAULT: a source of which this model drives no cause is detected. A timestamp unit error discards
the exchange; source 1,342 names one of its two causes, which of them is free (R340, R341). -/
def State.detect (src : Nat) (rail : Bool) (s : State) : State :=
  if s.top.porstLow then s
  else
    let s := if src = 1333 then s.modTime fun t => { t with exch := none } else s
    if src = 1342 ∧ !rail then
      let (n, s) := s.free
      let s := if n % 2 = 1 then s.modSec fun x => { x with rngFail := true } else s
      s.raise src rail (1 + n % 2)
    else s.raise src rail 0

end Sys2Proof.Machine
end

