-- ==== Sys2Proof/Machine/Secure.lean ====
section
/-! DEFINITION. Key provisioning, the boundary scan port and RMA_UNLOCK (R374 to R386). -/

namespace Sys2Proof.Machine

/-! ## Key slots (R375 to R377) -/

/-- A refused PROGRAM or REVOKE. -/
def State.secErr (code : Nat) (s : State) : State := s.modSec fun x => { x with err := true, errCode := code }

/-- The provisioning registers are cleared. -/
def State.clearProv (s : State) : State := s.modSec fun x => { x with provHash := [], provKey := [] }

/-- KHASH and IKEY as provisioned: byte 4i of each in bits 7 to 0 of word i. -/
def provNat (t : Tab Word) (n : Nat) : Nat := (List.range n).foldl (fun v i => v + (tget 0 t i).toNat * 2 ^ (32 * i)) 0

/-- The code that refuses a PROGRAM or REVOKE of a slot, 0 for none; the checks in the order BOTH, SLOT, BUSY, STATE. -/
def State.secCode (s : State) (prog rev : Bool) (slot : Nat) : Nat :=
  if prog && rev then 4
  else if slot = 0 ∨ 2 < slot then 2
  else if s.sec.busy || s.img.stg == .loading || s.img.stg == .checking || s.img.stg == .committing then 3
  else if prog && ((s.keySlot slot).state != 0 || s.img.activeValid) then 1
  else if rev && (s.keySlot slot).state != 1 then 1
  else 0

/-- A write of SEC_CTRL. A write that only names a slot is discarded where there is no such slot (R4). A refused write changes nothing, but that a refused PROGRAM clears the provisioning registers. -/
def State.secCtrl (v : Word) (s : State) : State :=
  let prog := bit v 31
  let rev := bit v 30
  let slot := fld v 0 2
  if !prog && !rev then
    if slot = 3 then s else s.modSec fun x => { x with slotSel := v.extractLsb' 0 2 }
  else
    let c := s.secCode prog rev slot
    if c ≠ 0 then
      let s := s.secErr c
      if prog then s.clearProv else s
    else
      let s := s.modSec fun x => { x with slotSel := v.extractLsb' 0 2 }
      if prog then s.modSec fun x => { x with busy := true, busySlot := slot }
      else s.modSec fun x => { x with slots := tmod {} x.slots slot fun k => { k with state := 2 } }

/-- PROGRAM_DONE: the slot is ACTIVE with the provisioned hash and key. -/
def State.programDone (s : State) : State :=
  if !s.sec.busy then s
  else (s.modSec fun x => { x with
    busy := false,
    slots := tput x.slots x.busySlot {
      state := 1, khash := BitVec.ofNat 384 (provNat x.provHash 12), ikey := BitVec.ofNat 256 (provNat x.provKey 8) } }).clearProv

/-! ## Boundary scan (R383, R384) -/

/-- The instructions under which the device is held in warm reset. -/
def Jtag.holds : Jtag → Bool
  | .extest | .clamp | .highz | .extestPulse | .extestTrain => true
  | _ => false

/-- An instruction is selected: the device enters or leaves the boundary-test reset. -/
def State.jtagSelect (i : Jtag) (s : State) : State :=
  let s := s.modTop fun t => { t with jtag := i }
  if i.holds then
    if s.top.jtagHold then s
    else if s.top.porstLow then s.modTop fun t => { t with jtagHold := true }
    else s.warmReset.modTop fun t => { t with jtagHold := true }
  else if !s.top.jtagHold then s
  else
    (s.modTop fun t => { t with jtagHold := false }).restart

/-- A group of digital pins in the boundary register: how many, whether the device drives them, as open drains or as the lanes and
pairs of IEEE 1149.6, which take EXTEST_PULSE and EXTEST_TRAIN. -/
structure PinGroup where
  count : Nat
  drives : Bool := false
  openDrain : Bool := false
  ac : Bool := false

/-- The digital pins of R410 but those of the JTAG port itself, one cell each (R383, R401; log 119): PCIe receive and transmit,
PERST_N, PTP receive and transmit, CLKOUT, GUY, TRIG_IN, TRIG_OUT, SYNC, REFCLK, the MSPI inputs and MSPI_SDO, the PSPI outputs
and PSPI_SDI, straps, PORST_N and RESET_N, FAULT_N and CW_OK. -/
def pinGroups : List PinGroup :=
  [{ count := 32, ac := true }, { count := 32, drives := true, ac := true }, { count := 4 }, { count := 2, ac := true },
   { count := 2, drives := true, ac := true }, { count := 16, drives := true, ac := true },
   { count := 8, drives := true, openDrain := true }, { count := 4 }, { count := 4, drives := true }, { count := 2, ac := true },
   { count := 2, ac := true }, { count := 3 }, { count := 1, drives := true }, { count := 6, drives := true }, { count := 1 },
   { count := 4 }, { count := 2 }, { count := 2, drives := true, openDrain := true }]

/-- Cells of the boundary register. -/
def boundaryCells : Nat := (pinGroups.map (·.count)).foldl (· + ·) 0

/-- The group of cell i. -/
def pinGroup : List PinGroup → Nat → PinGroup
  | [], _ => { count := 0 }
  | g :: r, i => if i < g.count then g else pinGroup r (i - g.count)

/-- What the boundary scan puts on a digital pin: nothing, so that the pin has its own function, a level, a pulse or a train of
pulses from a level, or high impedance. -/
inductive TestDrive where
  | system | level (high : Bool) | pulse (high : Bool) | train (high : Bool) | floating
  deriving DecidableEq, Repr

/-- The drive of the digital pin of cell i under the instruction in force (R383). An open drain is never driven high. -/
def Top.testDrive (t : Top) (i : Nat) : TestDrive :=
  let g := pinGroup pinGroups i
  let high := t.boundary.getD i false
  let level := if g.openDrain && high then .floating else .level high
  if !g.drives then (if t.jtag.holds then .floating else .system)
  else match t.jtag with
    | .extest | .clamp => level
    | .highz => .floating
    | .extestPulse => if g.ac then .pulse high else level
    | .extestTrain => if g.ac then .train high else level
    | _ => .system

/-- n bits that the spec does not fix: the states of the digital pins, in the boundary register's order. -/
def State.freeBits : Nat → State → List Bool × State
  | 0, s => ([], s)
  | n + 1, s =>
    let (v, s) := s.free
    let (r, s) := State.freeBits n s
    (v.testBit 0 :: r, s)

/-- Bits shifted through the boundary register, which has captured the states of the pins: as many come out as go in, and what it
then holds drives the pins (R383). -/
def State.jtagShift (bs : List Bool) (s : State) : State :=
  let (pins, s) := s.freeBits boundaryCells
  s.modTop fun t => { t with boundary := (pins ++ bs).drop bs.length, tdo := (pins ++ bs).take bs.length }

/-- IDCODE: version, part number, manufacturer field and bit 0. -/
def idcode : Nat := 0x0051286B + Config.stepping * 2 ^ 28

/-- The IDCODE register comes out, least significant bit first. -/
def State.jtagId (s : State) : State :=
  s.modTop fun t => { t with tdo := (List.range 32).map fun i => idcode.testBit i }

/-- The bypass register comes out: one bit, captured as 0. -/
def State.jtagBypass (s : State) : State := s.modTop fun t => { t with tdo := [false] }

/-! ## RMA_UNLOCK (R385) -/

/-- A slot with every fuse bit programmed to 1. -/
def destroyed : KeySlot := { state := 3, khash := BitVec.allOnes 384, ikey := BitVec.allOnes 256 }

/-- The slots of a list are destroyed; a programming in progress of one of them is over. -/
def Sec.destroy (is : List Nat) (x : Sec) : Sec :=
  { x with slots := is.foldl (fun t i => tput t i destroyed) x.slots, busy := x.busy && !is.contains x.busySlot }

/-- Slots 1 and 2 are destroyed. -/
def State.destroySlots (s : State) : State := s.modSec fun x => { x.destroy [1, 2] with rmaPending := false }

/-- A supply loss during step 1: each customer slot is destroyed or as before, a free choice. -/
def State.rmaCut (s : State) : State :=
  let (n, s) := s.free
  s.modSec fun x => { x.destroy ([1, 2].filter n.testBit) with rmaPending := true }

/-- The nonce that the next RMA_UNLOCK exchanges, a fresh 128 bits. -/
def State.rmaNonce (s : State) : BitVec 128 := BitVec.ofNat 128 s.free.1

/-- (r, sg) is a signature by the slot 0 key over the nonce and DEV_SN. The order of their bytes is not stated (log 94). -/
def State.rmaSigned (s : State) (r sg : BitVec 384) : Bool :=
  Config.signedBy Config.vendorHash (bytesOf 16 s.rmaNonce.toNat ++ bytesOf 8 Config.devSn.toNat) r sg

/-- RMA_UNLOCK puts out a nonce, and the signature that answers it comes in. An erasure that an earlier supply loss cut short is
completed first. With the per-boot key gone the HBM content is lost, and the images in its slots with it. -/
def State.rmaUnlock (r sg : BitVec 384) (supplyLost : Bool) (s : State) : State :=
  let ok := s.rmaSigned r sg
  let nonce := s.rmaNonce
  let s := s.free.2.jtagSelect .rma
  let s := (s.modSec fun x => { x with nonce := nonce }).modTop fun t => { t with tdo := (List.range 128).map nonce.getLsbD }
  let s := if s.sec.rmaPending && !supplyLost then s.destroySlots else s
  if !ok then s
  else if supplyLost then s.rmaCut
  else
    let s := s.destroySlots.loseKey.modSec fun x => { x with testOpen := true, rma := true }
    let forget (c : Container) : Container := { c with content := none }
    s.modImg fun x => { x with staged := x.staged.map forget, active := x.active.map forget }

/-- SEC_STATUS. -/
def Sec.statusWord (x : Sec) : Word :=
  flag x.err 31 ||| flag x.busy 30 ||| flag x.rngFail 29 ||| flag x.rma 28 ||| wd x.errCode

end Sys2Proof.Machine
end

