-- ==== Sys2Proof/Machine/Regs.lean ====
section
/-! DEFINITION. What each register reads as, block by block (R387 to R396 and the register tables of each chapter). An offset that no table defines reads as none. -/

namespace Sys2Proof.Machine

/-! ## Shapes -/

/-- _LO and _HI words of a 48-bit counter (R128). -/
def Cnt48.lo (c : Cnt48) : Word := c.count.extractLsb' 0 32
def Cnt48.hi (c : Cnt48) : Word := flag c.sat 31 ||| wd (c.count.toNat / 2 ^ 32)

/-- A write of 1 to SAT clears the flag alone (R390). -/
def Cnt48.write (c : Cnt48) (v : Word) : Cnt48 := { c with sat := c.sat && !bit v 31 }

/-- Index of an address in a group of n registers from base, a stride apart. -/
def ix (a base stride n : Nat) : Option Nat :=
  if base ≤ a ∧ (a - base) % stride = 0 ∧ (a - base) / stride < n then some ((a - base) / stride) else none

/-- The first answer of a list of groups of registers, each asked by its index. -/
def firstReg : List (Option Word) → Option Word
  | [] => none
  | some v :: _ => some v
  | none :: r => firstReg r

/-! ## TOP, CLK, PWR, FLT (R280, R339, R357, R373, R389, R393) -/

/-- TOP_PORT_STATUS(p). -/
def State.portStatusWord (s : State) (p : Nat) : Word :=
  let x := s.port p
  if s.present p then
    flag x.unmapped 31 ||| flag x.partViol 30 ||| flag x.badSize 29 ||| flag (s.top.bifStrap == 3) 28
  else 0

/-- TOP block. -/
def State.topReg (s : State) (a : Nat) : Option Word :=
  let t := s.top
  match a with
  | 0x000 => some 0x5A540512
  | 0x004 => some (at' Config.stepping 16 ||| 0x0100)
  | 0x008 => some 0x00042040
  | 0x070 => some (wd t.adminPort)
  | 0x080 => some 0
  | 0x084 => some (flag t.causeCold 31 ||| flag t.causeWarm 30 ||| flag t.causeSoft 29)
  | 0x088 => some 0
  | 0x08C => some (wd t.bootCode)
  | 0x090 => some (wd t.inArmed.toNat)
  | 0x0B0 => some (wd (s.reader 4).winSel)
  | 0x100 => some t.cwStatus
  | 0x104 => some t.cwScans
  | _ => firstReg [
      (ix a 0x040 4 4).map s.portStatusWord,
      (ix a 0x050 4 8).map fun k =>
        let v := (s.port (k / 2)).violAddr
        if k % 2 = 0 then lo32 v else hi32 v,
      (ix a 0x0A0 4 4).map fun p => wd (s.reader p).winSel,
      (ix a 0x140 4 16).map fun i => tget 0 t.cwMask i,
      (ix a 0x200 4 32).map t.classWord,
      (ix a 0x400 4 512).map fun c => tget 0 t.cwV c]

/-- CLK block. -/
def State.clkReg (s : State) (a : Nat) : Option Word :=
  let c := s.clk
  let lock (base : Nat) : Word := (List.range 32).foldl (fun w i => w ||| flag (s.bench (base + i)).dllLock i) 0
  match a with
  | 0x00 => some (flag c.pllLock 31 ||| flag c.refOk 30 ||| flag c.unlockSeen 29 ||| flag c.refLossSeen 28 ||| flag c.err 27 |||
      at' c.errCode 24)
  | 0x04 => some (at' c.lockN.toNat 16 ||| wd c.lockWin.toNat)
  | 0x08 => some (lock 0)
  | 0x0C => some (lock 32)
  | 0x80 => some (wd Config.clkOutLat)
  | _ => (ix a 0x40 4 16).map fun k =>
      let o : ClkOut := tget {} c.outs (k / 2)
      if k % 2 = 0 then flag o.en 31 ||| wd o.div.toNat else at' o.coarse.toNat 6 ||| wd o.fine.toNat

/-- PWR block. -/
def State.pwrReg (s : State) (a : Nat) : Option Word :=
  let p := s.pwr
  match a with
  | 0x00 => some (wd p.target)
  | 0x04 => some (flag p.err 31 ||| at' p.errCode 28 ||| wd p.pstate.code)
  | 0x08 => some (p.wakeSec.extractLsb' 0 32)
  | 0x0C => some (wd (p.wakeSec.toNat / 2 ^ 32))
  | 0x10 => some (wd p.wakeNs.toNat)
  | 0x14 => some (flag p.wakeArm 31 ||| flag p.fired 30 ||| wd p.wtarget)
  | 0x20 => some p.tcool
  | 0x24 => some (wd p.cls)
  | 0x28 => some (flag p.tripValid 31 ||| wd p.tripRegion)
  | 0x2C => some p.tripTj
  | 0x1C0 => some p.total
  | _ => firstReg [
      (ix a 0x100 4 16).map fun k => tget 0 p.p k,
      (ix a 0x140 4 16).map fun k => tget 0x42340000 p.tj k,
      (ix a 0x180 4 16).map fun k => tget 0x42340000 p.tjMax k]

/-- FLT_SITE(i). -/
def State.fltSite (s : State) (i : Nat) : Word :=
  let x := s.site i
  at' (s.siteShown i).code 28 ||| flag x.cfg.resume 24 ||| at' x.recCnt 16 ||| wd x.lastSrc

/-- A word of 32 bits, bit j from index 32 i + j. -/
def bitWord (f : Nat → Bool) (i : Nat) : Word := (List.range 32).foldl (fun w j => w ||| flag (f (32 * i + j)) j) 0

/-- FLT block. -/
def State.fltReg (s : State) (a : Nat) : Option Word :=
  let f := s.flt
  match a with
  | 0x000 => some (flag f.overflow 31 ||| flag f.err 30 ||| flag f.ftLatched 29 ||| flag f.faultN 28)
  | 0x004 => some (wd f.siteSel.toNat)
  | 0x008 => some (flag f.firstValid 31 ||| flag f.firstRail 30 ||| at' f.firstSub 18 ||| at' f.firstClass 16 ||| wd f.firstSrc)
  | 0x010 => some (lo32 f.firstTick)
  | 0x014 => some (hi32 f.firstTick)
  | 0x018 => some (f.firstSec.extractLsb' 0 32)
  | 0x01C => some (wd (f.firstSec.toNat / 2 ^ 32))
  | 0x020 => some (wd f.firstNs.toNat)
  | 0x030 => some f.cntCe.lo
  | 0x034 => some f.cntCe.hi
  | 0x038 => some f.cntUc.lo
  | 0x03C => some f.cntUc.hi
  | 0x040 => some f.cntFt.lo
  | 0x044 => some f.cntFt.hi
  | 0x050 => some (wd f.recFt)
  | 0x080 => some (wd f.quietFt)
  | 0x084 => some (at' f.limFt 8 ||| wd f.limUc)
  | _ => firstReg [
      (ix a 0x060 4 8).map fun k => wd (s.quietUs k),
      (ix a 0x100 4 43).map (bitWord fun n => (tfind f.active n).isSome),
      (ix a 0x200 4 43).map (bitWord fun n => tget false f.seen n),
      (ix a 0x300 4 85).map fun i => (List.range 16).foldl (fun w j => w ||| at' (s.srcClass (16 * i + j)) (2 * j)) 0,
      (ix a 0x600 4 128).map s.fltSite]

/-! ## TIME and GUY (R301, R313, R322) -/

/-- The live time group. -/
def State.timeFrac (s : State) : Nat := s.time.nsq % 2 ^ 48 / 2 ^ 32

/-- TIME block, as reader r reads it. -/
def State.timeReg (s : State) (r a : Nat) : Option Word :=
  let t := s.time
  let h := s.reader r
  let sec := if h.timeHeld then h.timeSec.toNat else t.sec
  let tick := if h.timeHeld then h.timeTick.toNat else s.now
  match a with
  | 0x00 => some (wd s.timeNs)
  | 0x04 => some (wordOf sec 0)
  | 0x08 => some (wd (sec / 2 ^ 32 % 2 ^ 16))
  | 0x0C => some (wd (if h.timeHeld then h.timeFrac.toNat else s.timeFrac))
  | 0x10 => some (wordOf tick 0)
  | 0x14 => some (wordOf tick 1)
  | 0x20 => some (flag t.ppsOut 2 ||| wd t.src.toNat)
  | 0x24 => some (flag t.stepArm 31 ||| flag t.disagree 30 ||| flag t.refused 29 ||| flag t.rateLimit 28 ||| flag t.master 27 |||
      flag t.lost 26 ||| at' t.refcnt 4 ||| wd t.quality)
  | 0x28 => some t.jumpLim
  | 0x2C => some (BitVec.ofInt 32 t.rate)
  | 0x30 => some (ofsWord t.ofsLast)
  | 0x34 => some (ofsWord t.ofsRefused)
  | 0x38 => some (at' t.lockWin.toNat 16 ||| at' t.ki.toNat 8 ||| wd t.kp.toNat)
  | 0x40 => some (at' t.domain.toNat 16 ||| at' t.tmo.toNat 8 ||| flag t.transport 1 ||| flag t.phy 0)
  | 0x48 => some (lo32 t.priId)
  | 0x4C => some (hi32 t.priId)
  | 0x50 => some (wd t.priPort.toNat)
  | 0x54 => some (lo32 t.bakId)
  | 0x58 => some (hi32 t.bakId)
  | 0x5C => some (wd t.bakPort.toNat)
  | 0x60 => some (t.ppsSec.extractLsb' 0 32)
  | 0x64 => some (wd (t.ppsSec.toNat / 2 ^ 32))
  | 0x68 => some t.refuseCnt.lo
  | 0x6C => some t.refuseCnt.hi
  | _ => firstReg [
      (ix a 0x100 4 64).map fun k =>
        let c := s.cmp (k / 4)
        match k % 4 with
        | 0 => c.sec.extractLsb' 0 32
        | 1 => wd (c.sec.toNat / 2 ^ 32)
        | 2 => wd c.ns.toNat
        | _ => flag c.armed 31 ||| flag c.fired 30 ||| flag c.late 29 ||| at' c.action 8 ||| wd c.part,
      (ix a 0x200 4 16).bind fun k =>
        let c : Cap := tget {} t.caps (k / 4)
        match k % 4 with
        | 0 => some (wd c.ns.toNat)
        | 1 => some (c.sec.extractLsb' 0 32)
        | 2 => some (flag c.valid 31 ||| flag c.ovr 30 ||| wd (c.sec.toNat / 2 ^ 32))
        | _ => none]

/-- GUY block. -/
def State.guyReg (s : State) (a : Nat) : Option Word :=
  let g := s.guy
  match a with
  | 0x00 => some (flag g.syncSe 9 ||| flag g.syncEvery 8 ||| at' g.g6React.toNat 4 ||| flag g.g6Out 2 ||| flag g.strobeMaster 1 |||
      flag g.g0Part 0)
  | 0x04 => some s.guyLevels
  | 0x10 => some (lo32 g.descHash)
  | 0x14 => some (hi32 g.descHash)
  | 0x18 => some (flag g.descWritten 31 ||| at' g.descStepping.toNat 16 ||| at' g.qmin.toNat 8 ||| flag g.req 0)
  | 0x1C => some g.agreeTmo
  | 0x20 => some (at' g.state 28 ||| at' g.reason 24)
  | 0x28 => some (lo32 g.startEpoch)
  | 0x2C => some (hi32 g.startEpoch)
  | 0x30 => some (wd g.syncTrim.toNat)
  | 0x34 => some (flag g.syncSlip 31 ||| flag g.syncSeen 30)
  | 0x38 => some g.slipCnt.lo
  | 0x3C => some g.slipCnt.hi
  | 0x40 => some (flag g.g6Seen 31 ||| flag g.g6Driving 30)
  | _ => none

/-! ## HOST, SPIM, IMG, SEC, MET (R226, R262, R280, R298, R386) -/

/-- HOST block of one port. -/
def State.hostReg (s : State) (p a : Nat) : Option Word :=
  let x := s.port p
  let v : Option Word := match a with
    | 0x000 => some (flag x.en 0)
    | 0x004 => some (flag x.orphan 31 ||| flag x.linkUp 30 ||| flag x.quiescing 29 ||| at' x.width.toNat 16 |||
        at' x.speed.toNat 12 ||| wd x.jobs.length)
    | 0x010 => some (lo32 x.sqBase)
    | 0x014 => some (hi32 x.sqBase)
    | 0x018 => some (wd x.sqSize.toNat)
    | 0x01C => some (wd x.sqTail.toNat)
    | 0x020 => some (wd x.sqHead.toNat)
    | 0x030 => some (lo32 x.cqBase)
    | 0x034 => some (hi32 x.cqBase)
    | 0x038 => some (wd x.cqSize.toNat)
    | 0x03C => some (wd x.cqHead.toNat)
    | 0x040 => some (wd x.cqTail.toNat)
    | 0x050 => some (lo32 x.nqBase)
    | 0x054 => some (hi32 x.nqBase)
    | 0x058 => some (wd x.nqSize.toNat)
    | 0x05C => some (wd x.nqHead.toNat)
    | 0x060 => some (wd x.nqTail.toNat)
    | 0x068 => some x.nqDrop.lo
    | 0x06C => some x.nqDrop.hi
    | 0x070 => some (flag x.cfgErr 1 ||| flag x.dbErr 0)
    | _ => none
  if s.present p then v else v.map fun _ => 0

/-- SPIM block but SPIM_FRM_DATA. -/
def State.spimReg (s : State) (a : Nat) : Option Word :=
  let x := s.spim
  match a with
  | 0x000 => some (flag x.overclk 31 ||| flag x.rdonly 30 ||| wd s.pwr.pstate.code)
  | 0x008 => some x.frameErr.lo
  | 0x00C => some x.frameErr.hi
  | 0x010 => some x.crcErr.lo
  | 0x014 => some x.crcErr.hi
  | 0x040 => some 0
  | 0x044 => some (flag x.qfullSeen 31 ||| flag x.discardSeen 30 ||| flag x.cutSeen 29 ||| flag x.err 28 ||| flag x.cur.isSome 26 |||
      at' x.errCode 8 ||| wd x.queue.length)
  | 0x048 => some (wd x.qdLast)
  | 0x04C => some (wd x.qdMax)
  | 0x050 => some x.qdrop.lo
  | 0x054 => some x.qdrop.hi
  | 0x060 => some (at' x.rxSrc 30 ||| at' x.rxFrame 24 ||| wd (x.rxTick % 2 ^ 24))
  | 0x070 => some (flag x.frmInc 31 ||| at' x.frmAddr 2)
  | _ => firstReg [
      (ix a 0x080 4 8).map fun i => tget 0 x.safe i,
      (ix a 0x100 0x10 4).map x.cfg,
      (ix a 0x104 0x10 4).map x.dly,
      (ix a 0x200 4 16).map fun u => tget 0 x.rx u]

/-- IMG block. -/
def State.imgReg (s : State) (a : Nat) : Option Word :=
  let x := s.img
  match a with
  | 0x00 => some 0
  | 0x04 => some (flag x.srcFlash 0)
  | 0x08 => some (lo32 x.loadAddr)
  | 0x0C => some (hi32 x.loadAddr)
  | 0x10 => some x.loadLen
  | 0x14 => some (flag x.activeSlot 31 ||| flag x.activeValid 30 ||| flag x.badCmd 29 ||| at' x.stg.code 8)
  | 0x18 => some (wd x.reason)
  | 0x1C => some (at' (x.dCode % 256) 24 ||| wd (x.dIndex % 2 ^ 24))
  | 0x20 => some x.value
  | 0x24 => some x.limit
  | 0x28 => some (wd x.commitNq.toNat)
  | 0x30 => some (lo32 x.actHash)
  | 0x34 => some (hi32 x.actHash)
  | 0x38 => some (lo32 x.stgHash)
  | 0x3C => some (hi32 x.stgHash)
  | 0x40 => some x.projPwr
  | 0x44 => some x.projTj
  | 0x48 => some (wd x.projRegion)
  | _ => firstReg [
      (ix a 0x100 4 32).bind fun k =>
        let r : StgPort := tget {} x.stgPort (k / 8)
        match k % 8 with
        | 0 => some r.target
        | 1 => some r.value
        | 2 => some (flag r.err 31)
        | _ => none,
      (ix a 0x200 4 64).map fun b => flag (s.bench b).stgOvf 31 ||| wd (s.bench b).stgItems.length,
      (ix a 0x300 4 16).bind fun k =>
        let r : ApplyStat := tget {} x.apply (k / 4)
        match k % 4 with
        | 0 => some (at' r.state 28 ||| at' r.reason 24 ||| at' r.code 16 ||| at' r.item 8 ||| wd r.bench)
        | 1 => some (wordOf r.beat 0)
        | 2 => some (wordOf r.beat 1)
        | _ => none,
      (ix a 0x400 4 256).map fun k => wd (tget 0 (s.gang (k / 4)).guard (k % 4))]

/-- SEC block: the provisioning registers read zero. -/
def State.secReg (s : State) (a : Nat) : Option Word :=
  match a with
  | 0x00 => some s.sec.statusWord
  | 0x04 => some (wd s.sec.slotSel.toNat)
  | _ => firstReg [
      (ix a 0x10 4 3).map fun i => wd (s.keySlot i).state,
      (ix a 0x40 4 12).map fun _ => 0,
      (ix a 0x80 4 8).map fun _ => 0]

/-- MET block. -/
def State.metReg (s : State) (a : Nat) : Option Word :=
  let m := s.met
  match a with
  | 0x000 => some m.statusWord
  | 0x008 => some (lo32 Config.devSn)
  | 0x00C => some (hi32 Config.devSn)
  | 0x010 => some m.sealCnt
  | 0x014 => some m.labId
  | 0x018 => some (m.calTime.extractLsb' 0 32)
  | 0x01C => some (wd (m.calTime.toNat / 2 ^ 32))
  | 0x040 => some m.refDiff
  | _ => firstReg [
      (ix a 0x020 4 8).map fun i => wordOf m.tableDigest.toNat i,
      (ix a 0x100 4 32).map fun k =>
        let r : Readback := tget {} m.rb (k / 8)
        match k % 8 with
        | 0 => r.sel
        | 1 => at' r.avg.toNat 1
        | 2 => flag r.done 31 ||| flag r.refused 30 ||| flag r.busy 29 ||| wd r.errCode
        | 3 => r.value
        | 4 => r.seq
        | 5 => wd r.flags.toNat
        | 6 => lo32 r.tick
        | _ => lo32 r.tag,
      (ix a 0x180 4 4).map fun p => hi32 (tget {} m.rb p : Readback).tick,
      (ix a 0x190 4 4).map fun p => hi32 (tget {} m.rb p : Readback).tag]

/-! ## MON, TRIGX, ACQ, RAE (R192, R213, R240) -/

/-- MON block but MON_STATUS. -/
def State.monReg (s : State) (a : Nat) : Option Word :=
  match a with
  | 0xA00 => some (at' s.monErrCode 4 ||| flag s.monErr 0)
  | 0xA04 => some (wd s.monErrAddr)
  | _ => firstReg [
      (ix a 0x000 4 512).map fun k => (s.mon (k / 8)).get (4 * (k % 8)),
      (ix a 0x900 4 64).map fun m => (s.mon m).period]

/-- TRIGX block. -/
def State.trigxReg (s : State) (a : Nat) : Option Word :=
  let x := s.trigx
  match a with
  | 0x1800 => some 0
  | 0x1804 => some (at' x.tw.toNat 16 ||| at' x.opol.toNat 12 ||| wd x.edge.toNat)
  | _ => (ix a 0 4 1376).bind fun k =>
      match k % 8 with
      | 6 => none
      | 7 => some (flag (tget false x.en (s.destOf (k / 8))) 0)
      | i => some (x.routeWord (s.destOf (k / 8)) i)

/-- The code of a unit's state. -/
def AcqState.code : AcqState → Nat
  | .idle => 0 | .waitStart => 1 | .pre => 2 | .post => 3 | .final => 4 | .held => 5 | .done => 6

/-- ACQ block of one unit. -/
def State.acqReg (s : State) (u a : Nat) : Option Word :=
  let x := s.acq u
  let dead := x.deadNs
  match a with
  | 0x00 => some x.acqCfg
  | 0x04 => some x.mode
  | 0x08 => some x.chsel
  | 0x0C => some x.pre
  | 0x10 => some x.post
  | 0x14 => some x.nrec
  | 0x18 => some x.tlevel
  | 0x1C => some x.thyst
  | 0x20 => some x.wlo
  | 0x24 => some x.whi
  | 0x28 => some x.qlevel
  | 0x30 => some 0
  | 0x34 => some (flag x.refused 31 ||| flag x.overrate 30 ||| flag x.gapSeen 29 ||| flag x.heldSeen 28 ||| at' x.errCode 4 |||
      wd x.state.code)
  | 0x38 => some (wd x.cfg.rate)
  | 0x40 => some (wordOf x.cfg.base 0)
  | 0x44 => some (wordOf x.cfg.base 1)
  | 0x48 => some (wd x.cfg.slot)
  | 0x4C => some (wd x.cfg.nslot)
  | 0x50 => some (wordOf x.wr 0)
  | 0x54 => some (wordOf x.wr 1)
  | 0x58 => some (wordOf x.rd 0)
  | 0x5C => some (wordOf x.rd 1)
  | 0x60 => some x.lost.lo
  | 0x64 => some x.lost.hi
  | 0x68 => some x.gapCnt.lo
  | 0x6C => some x.gapCnt.hi
  | 0x70 => some (wordOf dead 0)
  | 0x74 => some (wordOf dead 1)
  | _ => none

/-- The code of an engine's state. -/
def RaeState.code : RaeState → Nat
  | .idle => 0 | .intake => 1 | .paused => 2 | .search => 3 | .done => 4

/-- RAE block of one engine but RAE_SOL_DATA. -/
def State.raeReg (s : State) (e a : Nat) : Option Word :=
  let x := (s.rae e).at s.now
  let c := x.cfg
  match a with
  | 0x00 => some (flag c.auto 31 ||| flag c.colIo 30 ||| flag c.assigned 23 ||| at' c.site 16 ||| at' c.zr 8 ||| at' c.xr 4 ||| wd c.yr)
  | 0x04 => some (at' c.sr 16 ||| wd c.sc)
  | 0x08 => some (wd c.nb)
  | 0x10 => some 0
  | 0x14 => some (flag x.refused 31 ||| flag x.incomplete 30 ||| flag x.nonio 29 ||| flag x.dropped 28 ||| wd x.state.code)
  | 0x18 => some (at' x.maxOcc 16 ||| wd x.occ)
  | 0x20 => some x.result
  | 0x28 => some (wd x.nodes)
  | 0x2C => some (wd x.tsearch)
  | 0x30 => some x.drop.lo
  | 0x34 => some x.drop.hi
  | 0x40 => some (flag x.solInc 31 ||| wd x.solAddr)
  | _ => none

/-! ## BENCH (R62 to R68, R90 to R92, R128, R148, R171, R191, R339) -/

/-- The site of a half of a bench, when the bench is the site's home. -/
def State.homeSite (s : State) (b h : Nat) : Option Nat :=
  (s.siteOf b (4 * h)).bind fun i => if (s.site i).home = b then some i else none

/-- Half-1 registers act as those of half 0 when one site holds the bench (R191). -/
def State.halfIx (s : State) (b h : Nat) : Nat := if s.siteOf b 0 == s.siteOf b 4 then 0 else h

/-- First-fail record of half h, word k. -/
def State.ffReg (s : State) (b h k : Nat) : Option Word :=
  let f : FirstFail := tget {} (s.bench b).ff (s.halfIx b h)
  match k with
  | 0 => some (flag f.valid 31 ||| at' f.slot 28 ||| at' f.masked.toNat 16 ||| at' f.fail.toNat 8 ||| wd f.nocmp.toNat)
  | 1 => some (wordOf f.beat 0)
  | 2 => some (wordOf f.beat 1)
  | 3 => some f.snap.x
  | 4 => some f.snap.y
  | 5 => some f.snap.px
  | 6 => some f.snap.py
  | 7 => some (at' f.snap.z.toNat 24 ||| at' f.snap.pz.toNat 16 ||| at' f.snap.c.toNat 8)
  | 8 => some f.snap.td
  | 9 => some (at' f.lvlH.toNat 8 ||| wd f.lvlL.toNat)
  | _ => none

/-- Log registers of half h, word k from FAIL_CFG. -/
def State.logReg (s : State) (b h k : Nat) : Option Word :=
  let x := (s.homeSite b h).map s.site
  let y : Site := x.getD {}
  let f := y.fail
  let v : Option Word := match k with
    | 0 => some (flag true 31 ||| flag f.merge 30 ||| flag f.sample 29 ||| at' f.iok 24 ||| wd ((s.homeSite b h).getD 0))
    | 1 => some (flag y.logFull 31 ||| flag y.qovf 30 ||| flag y.bmIncomplete 29)
    | 2 => some (wd f.logSize)
    | 4 => some (wordOf f.logBase 0)
    | 5 => some (wordOf f.logBase 1)
    | 6 => some (wordOf y.logWr 0)
    | 7 => some (wordOf y.logWr 1)
    | 8 => some y.logDrop.lo
    | 9 => some y.logDrop.hi
    | 10 => some y.bmDrop.lo
    | 11 => some y.bmDrop.hi
    | 12 => some y.bmOutwin.lo
    | 13 => some y.bmOutwin.hi
    | _ => none
  if x.isSome then v else v.map fun _ => 0

/-- Bitmap registers of half h, word k. -/
def State.bmReg (s : State) (b h k : Nat) : Option Word :=
  let x := (s.homeSite b h).map s.site
  let f := (x.getD {}).fail
  let v : Option Word := match k with
    | 0 => some (wordOf f.bmBase 0)
    | 1 => some (wordOf f.bmBase 1)
    | 2 => some (wd f.xLo)
    | 3 => some (wd f.xHi)
    | 4 => some (wd f.yLo)
    | 5 => some (wd f.yHi)
    | 6 => some (at' f.zHi 8 ||| wd f.zLo)
    | _ => none
  if x.isSome then v else v.map fun _ => 0

/-- BENCH_SEQ_FLAGS. -/
def State.seqFlags (s : State) (b : Nat) : Word :=
  let site (l : Nat) : Bool := match s.siteOf b l with
    | some i => s.sfail i
    | none => false
  match s.gangOf b with
  | some g => flag (s.gfail g) 31 ||| flag (s.afail g) 30 ||| flag (site 4) 1 ||| flag (site 0) 0
  | none => 0

/-- SEQ sub-block and BENCH_PWR. What a gang shares is read from its lead bench (R117). -/
def State.seqReg (s : State) (b a : Nat) : Option Word :=
  let x := s.bench b
  let q := x.seq
  let l := (s.bench (s.leadOf b)).seq
  match a with
  | 0x000 => some (flag q.wrRefused 31 ||| at' q.stack.length 16 ||| flag q.handler 15 ||| flag l.trig 14 |||
      flag ((s.gangOf b).isSome && s.leadOf b == b) 13 ||| wd q.state.code)
  | 0x004 => some (wd q.pc)
  | 0x008 => match s.gangOf b with
    | some g => some (at' g 16 ||| at' (s.lead g) 8 ||| wd (Nat.log2 (s.gang g).cfg.bw))
    | none => some 0
  | 0x010 => some (at' l.evtEn.toNat 8 ||| flag l.hflag 1)
  | 0x014 => some (wd l.entry)
  | 0x018 => some (wd q.kaNano)
  | 0x020 => some (at' l.evtMerged.toNat 16 ||| wd l.evtPend.toNat)
  | 0x0A0 => some (wd q.lact.toNat)
  | 0x0A4 => some (at' l.wtPrimary.toNat 16 ||| flag l.wtTimeout 1 ||| flag l.wtReleased 0)
  | 0x0C8 => some (wordOf l.wtBeat 0)
  | 0x0CC => some (wordOf l.wtBeat 1)
  | 0x0D0 => some (wd q.marker.toNat)
  | 0x0E0 => some (s.seqFlags b)
  | 0x100 => some (wordOf q.beat 0)
  | 0x104 => some (wordOf q.beat 1)
  | 0x108 => some q.hstall.lo
  | 0x10C => some q.hstall.hi
  | 0x110 => some q.bpress.lo
  | 0x114 => some q.bpress.hi
  | 0x118 => some q.evtcnt.lo
  | 0x11C => some q.evtcnt.hi
  | 0x120 => some (flag q.underflow 31 ||| at' q.maxOcc 16 ||| wd x.fifo.length)
  | 0x130 => some (at' q.faultCode 24 ||| wd q.faultAddr)
  | 0x134 => some (wordOf q.faultBeat 0)
  | 0x138 => some (wordOf q.faultBeat 1)
  | 0x180 => some q.urBeats.lo
  | 0x184 => some q.urBeats.hi
  | 0x200 => some (match s.gangOf b with
    | some g => wd (lfp (s.gangBenches g).length)
    | none => 0)
  | 0x204 => some 0
  | 0x3C0 => some (flag x.pwrErr 31 ||| at' x.pwrCode 28 ||| flag x.waking 9 ||| flag x.awake 8)
  | _ => firstReg [
      (ix a 0x040 4 8).map fun i => wd (tget 0 l.evtVec i),
      (ix a 0x060 4 8).map fun k => tget 0 l.lreg k,
      (ix a 0x080 4 8).map fun k => tget 0 q.lcnt k,
      (ix a 0x0B0 4 6).map fun i => wordOf l.wtSrc.toNat i,
      (ix a 0x140 4 16).map fun i => if i = 0 then 0 else wd (tget 0 q.iomask i : BitVec 8).toNat,
      (ix a 0x210 4 10).bind (s.ffReg b 0),
      (ix a 0x250 4 10).bind (s.ffReg b 1),
      (ix a 0x2C0 4 14).bind (s.logReg b 0),
      (ix a 0x300 4 14).bind (s.logReg b 1),
      (ix a 0x340 4 7).bind (s.bmReg b 0),
      (ix a 0x360 4 7).bind (s.bmReg b 1),
      (ix a 0x380 4 16).map fun k =>
        let c := (s.chan b (k / 2)).failCnt
        if k % 2 = 0 then c.lo else c.hi]

/-- APG sub-block but its DATA registers; offsets from the bench base. -/
def State.apgReg (s : State) (b a : Nat) : Option Word :=
  let x := (s.bench b).apg
  match a with
  | 0x444 => some (flag x.ay 1 ||| flag x.ax 0)
  | 0x450 => some (at' x.errCode 4 ||| flag x.err 0)
  | 0x454 => some (wd x.errAddr)
  | 0x460 => some (flag x.clutInc 31 ||| at' x.clutAddr 2)
  | 0x468 => some (flag x.preInc 31 ||| at' x.preAddr 2)
  | 0x440 | 0x448 | 0x44C => some (x.regs.get a)
  | _ => firstReg [(ix a 0x400 4 14).map fun _ => x.regs.get a, (ix a 0x480 4 32).map fun _ => x.regs.get a]

/-- TMG sub-block but BENCH_TMG_DATA. -/
def State.tmgReg (s : State) (b a : Nat) : Option Word :=
  let t := (s.bench b).tmg
  match a with
  | 0x800 => some t.slotLo
  | 0x804 => some t.slotHi
  | 0x808 => some (wd t.pmin)
  | 0x810 => some (flag t.inc 31 ||| at' t.addr 2)
  | 0x818 => some (at' t.errCode 4 ||| flag t.err 0)
  | 0x81C => some (wd t.errAddr)
  | 0x820 => some (bitWord (s.entryValid b) 0)
  | 0x824 => some (bitWord (s.entryValid b) 1)
  | _ => firstReg [
      (ix a 0x840 4 8).map fun l => (s.chan b l).dsk,
      (ix a 0x860 4 8).map fun l => (s.chan b l).tdr,
      (ix a 0x880 4 8).map fun l => intDly (8 * b + l)]

/-- PE sub-block but BENCH_PE_DATA. -/
def State.peReg (s : State) (b a : Nat) : Option Word :=
  let w := (s.bench b).pe
  let mask (f : Chan → Bool) : Word := (List.range 8).foldl (fun v l => v ||| flag (f (s.chan b l)) l) 0
  let safe : Word := (List.range 8).foldl (fun v l => v ||| flag (s.isSafe b l) l) 0
  match a with
  | 0xC00 => some (flag w.inc 31 ||| at' w.addr 2)
  | 0xC08 => some (at' w.errCode 4 ||| flag w.err 0)
  | 0xC0C => some (wd w.errAddr)
  | 0xC10 => some (mask (·.clamp))
  | 0xC14 => some (mask (·.clampSeen))
  | 0xC18 => some safe
  | _ => none

/-- STRM sub-block but BENCH_STRM_LND_DATA. -/
def State.strmReg (s : State) (b a : Nat) : Option Word :=
  let t := (s.bench b).strm
  let c := t.cfg
  match a with
  | 0xE00 => some (flag (s.policy b 4) 11 ||| flag (s.policy b 0) 10 ||| flag c.hostFed 4 ||| wd c.fmt)
  | 0xE04 => some 0
  | 0xE08 => some c.lowater
  | 0xE0C => some (wd (c.size / 4096))
  | 0xE10 => some (wordOf c.base 0)
  | 0xE14 => some (wordOf c.base 1)
  | 0xE18 => some (wordOf t.prod 0)
  | 0xE1C => some (wordOf t.prod 1)
  | 0xE20 => some (wordOf t.cons 0)
  | 0xE24 => some (wordOf t.cons 1)
  | 0xE28 => some (wordOf t.limit 0)
  | 0xE2C => some (wordOf t.limit 1)
  | 0xE30 => some (wd (c.retain / 64))
  | 0xE34 => some (wd (c.prefill / 64))
  | 0xE38 => some t.status
  | 0xE40 => some t.discard.lo
  | 0xE44 => some t.discard.hi
  | 0xE50 => some (flag t.lndInc 31 ||| at' (min t.lndAddr 0xFF) 2)
  | _ => none

/-- A register of bench b, but the DATA registers of its windows. -/
def State.benchReg (s : State) (b a : Nat) : Option Word :=
  if a < 0x400 then s.seqReg b a
  else if a < 0x800 then s.apgReg b a
  else if a < 0xC00 then s.tmgReg b a
  else if a < 0xE00 then s.peReg b a
  else s.strmReg b a

/-! ## The whole map -/

/-- A register whose read has no effect of its own, at a byte address, as reader r reads it. -/
def State.plainReg (s : State) (r a : Nat) : Option Word :=
  if a % 4 ≠ 0 then none
  else if a < 0x1000 then s.topReg a
  else if a < 0x2000 then s.clkReg (a - 0x1000)
  else if a < 0x3000 then s.pwrReg (a - 0x2000)
  else if a < 0x4000 then s.fltReg (a - 0x3000)
  else if a < 0x5000 then s.timeReg r (a - 0x4000)
  else if a < 0x6000 then s.guyReg (a - 0x5000)
  else if a < 0x7000 then s.hostReg ((a - 0x6000) / 0x400) ((a - 0x6000) % 0x400)
  else if a < 0x8000 then s.spimReg (a - 0x7000)
  else if a < 0x9000 then s.imgReg (a - 0x8000)
  else if a < 0xA000 then s.secReg (a - 0x9000)
  else if a < 0xB000 then s.metReg (a - 0xA000)
  else if a < 0xC000 then s.monReg (a - 0xB000)
  else if a < 0xE000 then s.trigxReg (a - 0xC000)
  else if a < 0x10000 then none
  else if a < 0x20000 then s.acqReg ((a - 0x10000) / 0x800) ((a - 0x10000) % 0x800)
  else if a < 0x30000 then s.raeReg ((a - 0x20000) / 0x400) ((a - 0x20000) % 0x400)
  else if a < 0x100000 then none
  else if a < 0x140000 then s.benchReg ((a - 0x100000) / 0x1000) ((a - 0x100000) % 0x1000)
  else none

end Sys2Proof.Machine
end

