-- ==== Sys2Proof/Machine/Bus.lean ====
section
/-! DEFINITION. Register accesses from a PCIe port and over MSPI: the registers served (R395), rights (R277, R278, R287), holding registers (R390 to R392), windows (R393, R394), and what a write of each register does. -/

namespace Sys2Proof.Machine

/-! ## What is served (R330, R394, R395) -/

/-- Registers served in every power state. -/
def alwaysOn (a : Nat) : Bool :=
  let within (lo hi : Nat) : Bool := decide (lo ≤ a) && decide (a < hi)
  within 0x0000 0x000C || within 0x0070 0x0074 || within 0x0080 0x0094 || within 0x0100 0x1000 || within 0x2000 0x3000 ||
    within 0x3000 0x300C || within 0x3010 0x3024 || within 0x3030 0x3048 || within 0x3050 0x3054 || within 0x3084 0x3088 ||
    within 0x4000 0x4018 || within 0x4024 0x4028 || within 0x7000 0x7004 || within 0x7008 0x7018 || within 0x8014 0x8018 ||
    within 0x8030 0x8038

/-- Registers served besides while the digital die is up. -/
def dieOn (a : Nat) : Bool := (decide (0x40 ≤ a) && decide (a < 0x70)) || (decide (0x6000 ≤ a) && decide (a < 0x7000))

/-- The register at an address is powered now: only AON and IDLE serve fewer registers than all, and TRANSIT serves them once the
digital die is up (log 63). -/
def State.served (s : State) (a : Nat) : Bool :=
  s.powered || (s.pwr.pstate == .transit && s.pwr.dieUp) || alwaysOn a || (s.pwr.dieUp && dieOn a)

/-! ## Reads -/

/-- Lane of the register map's windows. -/
def winBase : Nat := 0x400000
def winEnd : Nat := 0x604200

/-- A word of the store window: microwords, then nano-words (R393). -/
def Bench.storeWord (x : Bench) (o : Nat) : Word :=
  if o < 0x80000 then
    let w := tget 0 x.micro (o / 8)
    if o % 8 = 0 then w.extractLsb' 0 32 else wd (w.toNat / 2 ^ 32)
  else
    let n := tget 0 x.nano ((o - 0x80000) / 32)
    wordOf n.toNat ((o - 0x80000) % 32 / 4)

/-- The nominal step of a calibration table, none where the spec gives none (R49, R69, R219, R229). -/
def State.nominalStep (s : State) (t : Nat) : Option Int :=
  if t < 8192 then
    let p := s.lane (t / 128) (t / 16 % 8)
    let n := t % 16
    if n ≤ 8 then dacStep p n
    else if n = 9 then some (adcStep { p with ppmuCfg := 0 })
    else if n < 15 then some (adcStep { p with ppmuCfg := at' (n - 10) 8 ||| 4 })
    else none
  else if t < 8320 then some (f32Dec 16 10000)
  else none

/-- A word of the mirror window. With MIRROR_BAD set it is that of the nominal coefficients. -/
def State.mirrorRead (o : Nat) (s : State) : Word × State :=
  let t := o / 128
  let w := o % 128 / 4
  if 18 ≤ w then (0, s)
  else if !s.met.mirrorBad then (s.mirrorWord (32 * t + w), s)
  else if w ≠ 0 then (0, s)
  else (((s.nominalStep t).map f32OfNum).getD (Config.nominalGain t), s)

/-- A read in the windows; none where it is reported as unimplemented (R394). -/
def State.winRead (w : Who) (a : Nat) (s : State) : Option Word × State :=
  if winEnd ≤ a then (none, s)
  else if 0x500000 ≤ a then
    let (v, s) := s.mirrorRead (a - 0x500000)
    (some v, s)
  else if s.img.stg = .committing then (none, s)
  else
    let b := (s.reader (whoIx w)).winSel
    match w with
    | .mspi => (some ((s.bench b).storeWord (a - winBase)), s)
    | .port p =>
      if s.img.activeValid ∧ s.benchOwner b ≠ some p.val then (some 0, s.violate p a)
      else (some ((s.bench b).storeWord (a - winBase)), s)

/-- A read of a register, with what it does; none where nothing is implemented. -/
def State.regRead (w : Who) (a : Nat) (s : State) : Option Word × State :=
  let one (x : Word × State) : Option Word × State := (some x.1, x.2)
  if a % 4 ≠ 0 then (none, s)
  else if winBase ≤ a ∧ a < 0x800000 then s.winRead w a
  else if a = 0x7074 then one s.frmRead
  else if 0xB800 ≤ a ∧ a < 0xB900 then one (s.monStatus ((a - 0xB800) / 4))
  else if 0x20000 ≤ a ∧ a < 0x30000 ∧ a % 0x400 = 0x44 then one (s.solRead ((a - 0x20000) / 0x400))
  else if 0x100000 ≤ a ∧ a < 0x140000 then
    let b := (a - 0x100000) / 0x1000
    match a % 0x1000 with
    | 0x464 => one (s.clutAccess b none)
    | 0x46C => one (s.preAccess b none)
    | 0x814 => one (s.tmgRead b)
    | 0xC04 => one (s.peRead b)
    | 0xE54 => one (s.lndRead b)
    | o => (s.benchReg b o, s)
  else (s.plainReg (whoIx w) a, s)

/-- Registers and windows whose words a commit loads (R254). -/
def loadedWord (a : Nat) : Bool :=
  let within (x lo hi : Nat) : Bool := decide (lo ≤ x) && decide (x < hi)
  if 0x100000 ≤ a ∧ a < 0x140000 then
    let o := a % 0x1000
    o == 0x008 || within o 0x010 0x01C || within o 0x040 0x080 || within o 0x140 0x180 || o == 0x200 ||
      within o 0x2C0 0x380 || within o 0x400 0x444 || within o 0x448 0x450 || o == 0x464 || o == 0x46C ||
      within o 0x480 0x500 || within o 0x800 0x80C || o == 0x814 || within o 0x840 0x860 || o == 0xC04 || o == 0xE00 ||
      within o 0xE08 0xE20 || within o 0xE28 0xE38 || o == 0xE54
  else if 0x10000 ≤ a ∧ a < 0x20000 then within (a % 0x800) 0x38 0x50
  else if 0x20000 ≤ a ∧ a < 0x30000 then within (a % 0x400) 0 0x0C
  else within a 0x3060 0x3088 || within a 0x3300 0x3454 || a == 0x5000 || a == 0x7074 || within a 0x7080 0x70A0 ||
    within a 0x7100 0x7140 || within a 0x8400 0x8800 || (within a 0xB000 0xB800 && a % 0x20 == 4) || within a 0xC000 0xD580 ||
    a == 0x2024

/-- A read while an image is being committed: a loaded word reads its previous or its new value, a free choice (R254). The
effects of the read, such as a window's next address, are those of the one read. -/
def State.regSeen (w : Who) (a : Nat) (s : State) : Option Word × State :=
  let r := s.regRead w a
  match if s.img.stg = .committing ∧ loadedWord a then s.img.staged.bind (·.content) else none with
  | some i =>
    let (n, t) := r.2.free
    (if n % 2 = 0 then r.1 else ((s.loadImage i true).regRead w a).1, t)
  | none => r

/-- _LO words of the pairs whose _HI word has no RW field, the time group apart (R391). -/
def pairLo (a : Nat) : Bool :=
  if 0x100000 ≤ a ∧ a < 0x140000 then
    let o := a % 0x1000
    [0x0C8, 0x100, 0x108, 0x110, 0x118, 0x134, 0x180, 0x214, 0x254, 0x2D0, 0x310, 0x2D8, 0x318, 0x2E0, 0x320, 0x2E8, 0x328,
      0x2F0, 0x330, 0x340, 0x360, 0x820, 0xE10, 0xE20, 0xE28, 0xE40].contains o || (ix o 0x380 8 8).isSome
  else if 0x10000 ≤ a ∧ a < 0x20000 then [0x40, 0x50, 0x60, 0x68, 0x70].contains (a % 0x800)
  else if 0x20000 ≤ a ∧ a < 0x30000 then a % 0x400 == 0x30
  else [0x1008, 0x3010, 0x3018, 0x3030, 0x3038, 0x3040, 0x4068, 0x5028, 0x5038, 0x7008, 0x7010, 0x7050, 0x8030, 0x8038, 0xA008,
      0xA018].contains a || (ix a 0x50 8 4).isSome || (ix a 0x4100 0x10 16).isSome || (ix a 0x4204 0x10 4).isSome ||
    (ix a 0x6068 0x400 4).isSome || (ix a 0x8304 0x10 4).isSome

/-- An access to an unimplemented register, or to one that is not powered, as its writer is told of it (R265, R285, R330). -/
def State.sayUnmapped (w : Who) (s : State) : State :=
  match w with
  | .port p => s.unmapped p
  | .mspi => s.modSpim fun x => { x with fUnmapped := true }
def State.sayOffline (w : Who) (s : State) : State :=
  match w with
  | .port p => s.unmapped p
  | .mspi => s.modSpim fun x => { x with fOffline := true }

/-- The word that a read returns, with all it does: flags, holding register and tag, time snapshot (R11, R301, R391). -/
def State.readWord (w : Who) (a : Nat) (s : State) : Word × State :=
  let r := whoIx w
  if !s.served a then (0, s.sayOffline w)
  else if (s.reader r).tag = some a then ((s.reader r).hold, s)
  else
    match s.regSeen w a with
    | (none, s) => (0, s.sayUnmapped w)
    | (some v, s) =>
      if a = 0x4000 then
        (v, s.modReader r fun h => { h with
          timeHeld := true, timeSec := BitVec.ofNat 48 s.time.sec, timeFrac := BitVec.ofNat 16 s.timeFrac,
          timeTick := BitVec.ofNat 64 s.now })
      else if pairLo a then
        let (hi, s) := s.regSeen w (a + 4)
        (v, s.modReader r fun h => { h with hold := hi.getD 0, tag := some (a + 4) })
      else (v, s)

/-- A writer or reader can reach the registers: a present port whose link is up, or MSPI outside cold reset. -/
def State.canReach (s : State) (w : Who) : Bool :=
  match w with
  | .port p => s.present p && (s.port p).linkUp
  | .mspi => !s.top.porstLow

/-- A register read. -/
def State.busRead (w : Who) (a : Nat) (s : State) : State :=
  if !s.canReach w then s
  else
    let (v, s) := s.readWord w a
    s.modReader (whoIx w) fun h => { h with data := v }

/-! ## Rights (R194, R213, R277, R278, R287, R298, R393) -/

/-- Who may write a register. -/
inductive Right where
  /-- The administrator port and MSPI. -/
  | admin
  /-- The owning port of a partition, where there is one, and MSPI. -/
  | owner (p : Option Nat)
  /-- A port; MSPI as the administrator port, and for every port before the first commit. -/
  | port (p : Nat)
  /-- A port alone. -/
  | only (p : Nat)
  /-- MSPI alone. -/
  | mspi
  /-- Every port and MSPI. -/
  | all
  deriving DecidableEq

/-- The right to write an implemented register. -/
def State.right (s : State) (a : Nat) : Right :=
  if 0x00A0 ≤ a ∧ a < 0x00B0 then .only ((a - 0xA0) / 4)
  else if a = 0x00B0 ∨ a = 0x7000 then .mspi
  else if 0x6000 ≤ a ∧ a < 0x7000 then .only ((a - 0x6000) / 0x400)
  else if 0x8100 ≤ a ∧ a < 0x8180 then .port ((a - 0x8100) / 0x20)
  else if 0x8300 ≤ a ∧ a < 0x8340 then .port ((a - 0x8300) / 0x10)
  else if 0xA100 ≤ a ∧ a < 0xA180 then .port ((a - 0xA100) / 0x20)
  else if 0xA180 ≤ a ∧ a < 0xA1A0 then .port ((a - 0xA180) / 4 % 4)
  else if 0xB000 ≤ a ∧ a < 0xB800 then .owner (s.monOwner ((a - 0xB000) / 0x20))
  else if 0xB800 ≤ a ∧ a < 0xB900 then .owner (s.monOwner ((a - 0xB800) / 4))
  else if 0xB900 ≤ a ∧ a < 0xBA00 then .owner (s.monOwner ((a - 0xB900) / 4))
  else if 0xC000 ≤ a ∧ a < 0xD800 then
    let d := (a - 0xC000) / 0x20
    if d < 64 then .owner (s.benchOwner d) else if d < 160 then .owner (s.unitOwner ((d - 64) % 32)) else .admin
  else if a = 0xD800 then .all
  else if 0x10000 ≤ a ∧ a < 0x20000 then .owner (s.unitOwner ((a - 0x10000) / 0x800))
  else if 0x20000 ≤ a ∧ a < 0x30000 then .owner (s.raeOwner ((a - 0x20000) / 0x400))
  else if 0x100000 ≤ a ∧ a < 0x140000 then .owner (s.benchOwner ((a - 0x100000) / 0x1000))
  else if winBase ≤ a then .all
  else .admin

/-- The registers at an address are those of a port that is not present, which discard writes without any flag (R263, R387): its
own blocks, and its TOP_PORT_STATUS and TOP_PORT_VIOL_ADDR. -/
def State.absent (s : State) (a : Nat) : Bool :=
  let of : Option Nat := match ix a 0x40 4 4, ix a 0x50 4 8, s.right a with
    | some p, _, _ => some p
    | _, some k, _ => some (k / 2)
    | _, _, .port p | _, _, .only p => some p
    | _, _, _ => none
  of.any fun p => !s.present p

/-- A right allows a writer. MSPI restricted to read-only writes nothing. -/
def State.allows (s : State) (w : Who) (r : Right) : Bool :=
  match w with
  | .port p =>
    match r with
    | .admin => p.val == s.top.adminPort
    | .owner o => o == some p.val
    | .port q | .only q => p.val == q
    | .mspi => false
    | .all => true
  | .mspi => !s.spim.rdonly && match r with
    | .port q => !s.img.activeValid || q == s.top.adminPort
    | .only _ => false
    | _ => true

/-- A write that the rights do not allow. -/
def State.denied (w : Who) (a : Nat) (s : State) : State :=
  match w with
  | .port p => s.violate p a
  | .mspi => s.modSpim fun x => { x with fDenied := true }

/-! ## Writes of the architecture-wide blocks -/

/-- A 32-bit half of a wider value replaced. -/
def setLo (n : Nat) (v : Word) : Nat := n / 2 ^ 32 * 2 ^ 32 + v.toNat
def setHi (n : Nat) (v : Word) : Nat := v.toNat * 2 ^ 32 + n % 2 ^ 32

/-- TOP block. A mask write takes CW_OK away at once where it uncovers an OPEN or SHORT channel (R372). -/
def State.topWrite (a : Nat) (v : Word) (s : State) : State :=
  if a = 0x80 then (if bit v 0 then s.warmPulse true else s)
  else if a = 0x84 then s.modTop fun t => { t with
    causeCold := t.causeCold && !bit v 31, causeWarm := t.causeWarm && !bit v 30, causeSoft := t.causeSoft && !bit v 29 }
  else if a = 0x88 then s.judged (State.partReset v)
  else match ix a 0x40 4 4, ix a 0xA0 4 5, ix a 0x140 4 16 with
    | some p, _, _ => s.portStatus p fun x => { x with
        unmapped := x.unmapped && !bit v 31, partViol := x.partViol && !bit v 30, badSize := x.badSize && !bit v 29 }
    | _, some r, _ => s.modReader r fun h => { h with winSel := fld v 0 6 }
    | _, _, some i => s.modTop fun t =>
        let u := { t with cwMask := tput t.cwMask i v }
        { u with cwOk := u.cwOk && u.cwJudge.cwOk }
    | _, _, _ => s

/-- CLK block. -/
def State.clkWrite (a : Nat) (v : Word) (s : State) : State :=
  match a with
  | 0x00 => s.modClk fun c => { c with
      unlockSeen := c.unlockSeen && !bit v 29, refLossSeen := c.refLossSeen && !bit v 28, err := c.err && !bit v 27,
      errCode := if bit v 27 then 0 else c.errCode }
  | 0x04 => s.lockCfg v
  | _ => match ix a 0x40 4 16 with
    | some k => if k % 2 = 0 then s.clkOutCfg (k / 2) v else s.clkOutDly (k / 2) v
    | none => s

/-- PWR block. -/
def State.pwrWrite (a : Nat) (v : Word) (s : State) : State :=
  match a with
  | 0x00 => s.pwrCtrl v
  | 0x04 => if bit v 31 then s.modPwr fun p => { p with err := false, errCode := 0 } else s
  | 0x08 => s.modPwr fun p => { p with wakeSec := BitVec.ofNat 48 (setLo p.wakeSec.toNat v) }
  | 0x0C => s.modPwr fun p => { p with wakeSec := BitVec.ofNat 48 (setHi p.wakeSec.toNat v) }
  | 0x10 => s.modPwr fun p => { p with wakeNs := v.extractLsb' 0 30 }
  | 0x14 => s.wakeCtrl v
  | 0x20 => s.tcoolWrite v
  | 0x28 => if bit v 31 then s.modPwr fun p => { p with tripValid := false } else s
  | _ => s

/-- FLT block. -/
def State.fltWrite (a : Nat) (v : Word) (s : State) : State :=
  match a with
  | 0x000 => s.modFlt fun f => { f with overflow := f.overflow && !bit v 31, err := f.err && !bit v 30 }
  | 0x004 => s.judged (State.fltCtrl v)
  | 0x034 => s.modFlt fun f => { f with cntCe := f.cntCe.write v }
  | 0x03C => s.modFlt fun f => { f with cntUc := f.cntUc.write v }
  | 0x044 => s.modFlt fun f => { f with cntFt := f.cntFt.write v }
  | 0x080 => s.fltQuietFt v
  | 0x084 => s.fltRecLim v
  | _ => match ix a 0x060 4 8, ix a 0x200 4 43 with
    | some k, _ => s.fltQuiet k v
    | _, some i => s.modFlt fun f => { f with seen := f.seen.filter fun x => !(x.1 / 32 == i && bit v (x.1 % 32)) }
    | _, _ => s

/-- TIME block. -/
def State.timeWrite (a : Nat) (v : Word) (s : State) : State :=
  match a with
  | 0x20 => s.timeCtrl v
  | 0x24 => s.modTime fun t => { t with
      disagree := t.disagree && !bit v 30, refused := t.refused && !bit v 29, rateLimit := t.rateLimit && !bit v 28 }
  | 0x28 => s.jumpLim v
  | 0x2C => s.timeRate v
  | 0x38 => s.timeServo v
  | 0x40 => s.ptpCfg v
  | 0x48 => s.modTime fun t => { t with priId := BitVec.ofNat 64 (setLo t.priId.toNat v) }
  | 0x4C => s.modTime fun t => { t with priId := BitVec.ofNat 64 (setHi t.priId.toNat v) }
  | 0x50 => s.modTime fun t => { t with priPort := v.extractLsb' 0 16 }
  | 0x54 => s.modTime fun t => { t with bakId := BitVec.ofNat 64 (setLo t.bakId.toNat v) }
  | 0x58 => s.modTime fun t => { t with bakId := BitVec.ofNat 64 (setHi t.bakId.toNat v) }
  | 0x5C => s.modTime fun t => { t with bakPort := v.extractLsb' 0 16 }
  | 0x60 => s.modTime fun t => { t with ppsSec := BitVec.ofNat 48 (setLo t.ppsSec.toNat v) }
  | 0x64 => s.modTime fun t => { t with ppsSec := BitVec.ofNat 48 (setHi t.ppsSec.toNat v) }
  | 0x6C => s.modTime fun t => { t with refuseCnt := t.refuseCnt.write v }
  | _ => match ix a 0x208 0x10 4 with
    | some j => s.modTime fun t => { t with caps := tmod {} t.caps j fun c =>
        { c with valid := c.valid && (!bit v 31 || c.validAt == some s.now),
                 ovr := c.ovr && (!bit v 30 || c.ovrAt == some s.now) } }
    | none => s

/-- GUY block. -/
def State.guyWrite (a : Nat) (v : Word) (s : State) : State :=
  match a with
  | 0x00 => s.guyCfg v
  | 0x10 => (s.modGuy fun g => { g with descHash := BitVec.ofNat 64 (setLo g.descHash.toNat v) }).agreeUpdate
  | 0x14 => (s.modGuy fun g => { g with descHash := BitVec.ofNat 64 (setHi g.descHash.toNat v) }).agreeUpdate
  | 0x18 => s.guyReq v
  | 0x1C => s.agreeTmo v
  | 0x30 => s.syncTrim v
  | 0x34 => s.modGuy fun g => { g with syncSlip := g.syncSlip && !bit v 31 }
  | 0x3C => s.modGuy fun g => { g with slipCnt := g.slipCnt.write v }
  | 0x40 => s.modGuy fun g => { g with g6Seen := g.g6Seen && !bit v 31 }
  | _ => s

/-! ## Writes of HOST, SPIM, IMG, SEC, MET -/

/-- HOST block of a port (R267). -/
def State.hostRegWrite (p a : Nat) (v : Word) (s : State) : State :=
  let cfg (f : Port → Port) : State := if (s.port p).en then s.cfgErr p else s.modPort p f
  match a with
  | 0x000 => s.queueCtrl p v
  | 0x010 => cfg fun x => { x with sqBase := BitVec.ofNat 64 (setLo x.sqBase.toNat v) }
  | 0x014 => cfg fun x => { x with sqBase := BitVec.ofNat 64 (setHi x.sqBase.toNat v) }
  | 0x018 => cfg fun x => { x with sqSize := v.extractLsb' 0 13 }
  | 0x01C => s.sqTailWrite p v
  | 0x030 => cfg fun x => { x with cqBase := BitVec.ofNat 64 (setLo x.cqBase.toNat v) }
  | 0x034 => cfg fun x => { x with cqBase := BitVec.ofNat 64 (setHi x.cqBase.toNat v) }
  | 0x038 => cfg fun x => { x with cqSize := v.extractLsb' 0 13 }
  | 0x03C => if (s.port p).cqSize.toNat ≤ fld v 0 12 then s else s.modPort p fun x => { x with cqHead := v.extractLsb' 0 12 }
  | 0x050 => cfg fun x => { x with nqBase := BitVec.ofNat 64 (setLo x.nqBase.toNat v) }
  | 0x054 => cfg fun x => { x with nqBase := BitVec.ofNat 64 (setHi x.nqBase.toNat v) }
  | 0x058 => cfg fun x => { x with nqSize := v.extractLsb' 0 13 }
  | 0x05C => if (s.port p).nqSize.toNat ≤ fld v 0 12 then s else s.modPort p fun x => { x with nqHead := v.extractLsb' 0 12 }
  | 0x06C => s.modPort p fun x => { x with nqDrop := x.nqDrop.write v }
  | 0x070 => s.modPort p fun x => { x with cfgErr := x.cfgErr && !bit v 1, dbErr := x.dbErr && !bit v 0 }
  | _ => s

/-- SPIM block. -/
def State.spimWrite (w : Who) (a : Nat) (v : Word) (s : State) : State :=
  match a with
  | 0x000 => s.modSpim fun x => { x with overclk := x.overclk && !bit v 31 }
  | 0x00C => s.modSpim fun x => { x with frameErr := x.frameErr.write v }
  | 0x014 => s.modSpim fun x => { x with crcErr := x.crcErr.write v }
  | 0x040 => s.pspiHost (w == .mspi) (fld v 0 6)
  | 0x044 => s.modSpim fun x => { x with
      qfullSeen := x.qfullSeen && !bit v 31, discardSeen := x.discardSeen && !bit v 30, cutSeen := x.cutSeen && !bit v 29,
      err := x.err && !bit v 28, errCode := if bit v 28 then 0 else x.errCode, qdMax := if bit v 27 then 0 else x.qdMax }
  | 0x054 => s.modSpim fun x => { x with qdrop := x.qdrop.write v }
  | 0x070 => s.modSpim fun x => { x with frmInc := bit v 31, frmAddr := fld v 2 12, frmPast := false }
  | 0x074 => s.frmWrite v
  | _ => match ix a 0x100 0x10 4, ix a 0x104 0x10 4 with
    | some i, _ => s.selCfgWrite i v
    | _, some i => s.selDlyWrite i v
    | _, _ => s

/-- IMG block. -/
def State.imgWrite (a : Nat) (v : Word) (s : State) : State :=
  match a with
  | 0x00 => s.imgCtrl v
  | 0x04 => s.modImg fun x => { x with srcFlash := bit v 0 }
  | 0x08 => s.modImg fun x => { x with loadAddr := BitVec.ofNat 64 (setLo x.loadAddr.toNat v) }
  | 0x0C => s.modImg fun x => { x with loadAddr := BitVec.ofNat 64 (setHi x.loadAddr.toNat v) }
  | 0x10 => s.modImg fun x => { x with loadLen := v }
  | 0x14 => s.modImg fun x => { x with badCmd := x.badCmd && !bit v 29 }
  | _ => match ix a 0x100 4 32 with
    | some k =>
      match k % 8 with
      | 0 => s.modStg (k / 8) fun r => { r with target := v }
      | 1 => s.modStg (k / 8) fun r => { r with value := v }
      | 2 => s.stgCtrl (k / 8) v
      | _ => s
    | none => s

/-- SEC block. -/
def State.secWrite (a : Nat) (v : Word) (s : State) : State :=
  match a with
  | 0x00 => if bit v 31 then s.modSec fun x => { x with err := false, errCode := 0 } else s
  | 0x04 => s.secCtrl v
  | _ => match ix a 0x40 4 12, ix a 0x80 4 8 with
    | some i, _ => s.modSec fun x => { x with provHash := tput x.provHash i v }
    | _, some i => s.modSec fun x => { x with provKey := tput x.provKey i v }
    | _, _ => s

/-- MET block. -/
def State.metRegWrite (a : Nat) (v : Word) (s : State) : State :=
  match ix a 0x100 4 32 with
  | some k =>
    match k % 8 with
    | 0 => s.modRb (k / 8) fun r => { r with sel := v &&& 0xFF0001FF }
    | 1 => s.rbCtrl (k / 8) v
    | 2 => s.modRb (k / 8) fun r => { r with done := r.done && !bit v 31, refused := r.refused && !bit v 30 }
    | _ => s
  | none => s

/-! ## Writes of MON, TRIGX, ACQ, RAE -/

/-- MON block. -/
def State.monRegWrite (a : Nat) (v : Word) (s : State) : State :=
  if a = 0xA00 then (if bit v 0 then { s with monErr := false, monErrCode := 0 } else s)
  else match ix a 0x000 4 512, ix a 0x800 4 64, ix a 0x900 4 64 with
    | some k, _, _ => if k % 8 = 0 then s.monCfgWrite (k / 8) v else s.monWrite (k / 8) (4 * (k % 8)) v
    | _, some m, _ => s.monStatusWrite m v
    | _, _, some m => s.monPeriodWrite m v
    | _, _, _ => s

/-- TRIGX block. -/
def State.trigxWrite (w : Who) (a : Nat) (v : Word) (s : State) : State :=
  if a = 0x1800 then s.swTrig w v
  else if a = 0x1804 then s.ioCfg v
  else match ix a 0x1C 0x20 172 with
    | some d => s.destWrite d v
    | none => s

/-- ACQ block of one unit, but the ACQ_RD pair. -/
def State.acqWrite (u a : Nat) (v : Word) (s : State) : State :=
  let x := s.acq u
  let cfg (f : Acq → Acq) : State :=
    if x.state = .idle ∨ x.state = .done then s.modAcq u f else s.acqRefuse u 1
  match a with
  | 0x00 => cfg fun x => { x with acqCfg := v }
  | 0x04 => if fld v 6 2 = 3 ∧ (x.state = .idle ∨ x.state = .done) then s.acqRefuse u 5
    else cfg fun x => { x with mode := v &&& 0x3FD }
  | 0x08 => cfg fun x => { x with chsel := v &&& 0xFFF }
  | 0x0C => cfg fun x => { x with pre := v }
  | 0x10 => cfg fun x => { x with post := v }
  | 0x14 => cfg fun x => { x with nrec := v }
  | 0x18 => cfg fun x => { x with tlevel := v }
  | 0x1C => cfg fun x => { x with thyst := v }
  | 0x20 => cfg fun x => { x with wlo := v }
  | 0x24 => cfg fun x => { x with whi := v }
  | 0x28 => cfg fun x => { x with qlevel := v }
  | 0x30 => s.acqCtrl u v
  | 0x34 => s.modAcq u fun x => { x with
      refused := x.refused && !bit v 31, overrate := x.overrate && !bit v 30, gapSeen := x.gapSeen && !bit v 29,
      heldSeen := x.heldSeen && !bit v 28, errCode := if bit v 31 then 0 else x.errCode }
  | 0x64 => s.modAcq u fun x => { x with lost := x.lost.write v }
  | 0x6C => s.modAcq u fun x => { x with gapCnt := x.gapCnt.write v }
  | _ => s

/-- A write of ACQ_RD: the _LO word is held for its writer, the _HI word acts (R212, R392). -/
def State.acqRdWrite (r u : Nat) (hi : Bool) (v : Word) (s : State) : State :=
  if !hi then s.modReader r fun h => { h with rdLo := tput h.rdLo u v }
  else
    let lo := tfind (s.reader r).rdLo u
    let s := s.modReader r fun h => { h with rdLo := tdel h.rdLo u }
    match lo with
    | some l => s.acqRead u (join64 v l).toNat
    | none => s.acqRefuse u 7

/-- RAE block of one engine. -/
def State.raeWrite (e a : Nat) (v : Word) (s : State) : State :=
  match a with
  | 0x10 => s.raeCtrl e v
  | 0x14 => s.modRae e fun x => { x with
      refused := x.refused && !bit v 31, incomplete := x.incomplete && !bit v 30, nonio := x.nonio && !bit v 29,
      dropped := x.dropped && !bit v 28 }
  | 0x34 => s.modRae e fun x => { x with drop := x.drop.write v }
  | 0x40 => s.modRae e fun x => { x with solInc := bit v 31, solAddr := fld v 0 16 }
  | _ => s

/-! ## Writes of BENCH -/

/-- A write of BENCH_SEQ_CTRL: its fields, then DOORBELL, then STOP (R117, R120, R127). -/
def State.seqCtrl (b : Nat) (v : Word) (s : State) : State :=
  let s := s.modSeq (s.leadOf b) fun q => { q with
    evtEn := v.extractLsb' 8 8, hflag := bit v 1, hflagTick := some s.now, hflagOld := q.hflagAt s.now }
  let s := if bit v 2 then s.assertEvt b 2 else s
  if !bit v 0 then s
  else match s.gangOf b with
    | some g => s.judged fun s => (s.stopGang g false).runStops
    | none => s

/-- A write that R128 allows only while the bench is not running. -/
def State.seqStill (b : Nat) (f : State → State) (s : State) : State :=
  if s.running b then s.modSeq b fun q => { q with wrRefused := true } else f s

/-- A write of BENCH_SEQ_EVT on tick t. What a firing of the WAIT_TRIG input on that tick has set stays 1 (R120, R390). -/
def Seq.clearEvents (t : Nat) (v : Word) (q : Seq) : Seq :=
  let set : Option Bool := (q.gen0.filter fun g => g.tick == t).map (·.pend)
  let keep (b : Bool) : BitVec 8 := if set = some b then 64 else 0
  { q with
    evtMerged := q.evtMerged &&& (~~~(v.extractLsb' 16 8) ||| keep true),
    evtPend := q.evtPend &&& (~~~(v.extractLsb' 0 8) ||| keep false) }

/-- SEQ sub-block and BENCH_PWR. -/
def State.seqWrite (b a : Nat) (v : Word) (s : State) : State :=
  let l := s.leadOf b
  let cnt (f : Seq → Seq) : State := s.modSeq b f
  match a with
  | 0x000 => s.modSeq b fun q => { q with wrRefused := q.wrRefused && !bit v 31 }
  | 0x010 => s.seqCtrl b v
  | 0x014 => s.seqStill b (State.modSeq l fun q => { q with entry := fld v 0 16 })
  | 0x020 => s.modSeq l (Seq.clearEvents s.now v)
  | 0x10C => cnt fun q => { q with hstall := q.hstall.write v }
  | 0x114 => cnt fun q => { q with bpress := q.bpress.write v }
  | 0x11C => cnt fun q => { q with evtcnt := q.evtcnt.write v }
  | 0x120 => cnt fun q => { q with underflow := q.underflow && !bit v 31 }
  | 0x184 => cnt fun q => { q with urBeats := q.urBeats.write v }
  | 0x204 => s.ffRearmWrite b v
  | 0x3C0 => s.judged (State.benchPwr b v)
  | _ =>
    match ix a 0x040 4 8, ix a 0x060 4 8, ix a 0x140 4 16, ix a 0x2C0 4 32, ix a 0x380 4 16 with
    | some i, _, _, _, _ => s.seqStill b (State.modSeq l fun q => { q with evtVec := tput q.evtVec i (fld v 0 16) })
    | _, some k, _, _, _ => s.seqStill b (State.modSeq l fun q => { q with lreg := tput q.lreg k v })
    | _, _, some i, _, _ =>
      if i = 0 then s else s.seqStill b (State.modSeq b fun q => { q with iomask := tput q.iomask i (v.extractLsb' 0 8) })
    | _, _, _, some k, _ =>
      match s.homeSite b (k / 16) with
      | none => s
      | some i => s.modSite i fun x =>
        match k % 16 with
        | 1 => { x with logFull := x.logFull && !bit v 31, qovf := x.qovf && !bit v 30,
                        bmIncomplete := x.bmIncomplete && !bit v 29 }
        | 9 => { x with logDrop := x.logDrop.write v }
        | 11 => { x with bmDrop := x.bmDrop.write v }
        | 13 => { x with bmOutwin := x.bmOutwin.write v }
        | _ => x
    | _, _, _, _, some k =>
      if k % 2 = 0 then s else s.modChan b (k / 2) fun c => { c with failCnt := c.failCnt.write v }
    | _, _, _, _, _ => s

/-- APG sub-block. -/
def State.apgRegWrite (b a : Nat) (v : Word) (s : State) : State :=
  match a with
  | 0x450 => if bit v 0 then s.modApg b fun x => { x with err := false, errCode := 0 } else s
  | 0x460 => s.modApg b fun x => { x with clutInc := bit v 31, clutAddr := fld v 2 12, clutPast := false }
  | 0x464 => (s.clutAccess b (some v)).2
  | 0x468 => s.modApg b fun x => { x with preInc := bit v 31, preAddr := fld v 2 8, prePast := false }
  | 0x46C => (s.preAccess b (some v)).2
  | 0x444 | 0x454 => s
  | _ => if (s.apgReg b a).isSome then s.apgWrite b a v else s

/-- TMG sub-block. -/
def State.tmgRegWrite (b a : Nat) (v : Word) (s : State) : State :=
  match a with
  | 0x800 => s.judged (State.slotWrite b false v)
  | 0x804 => s.judged (State.slotWrite b true v)
  | 0x810 => s.modTmg b fun t => { t with inc := bit v 31, addr := fld v 2 13, past := false }
  | 0x814 => s.judged (State.tmgWrite b v)
  | 0x818 => if bit v 0 then s.modTmg b fun t => { t with err := false, errCode := 0 } else s
  | _ => match ix a 0x840 4 8 with
    | some l => s.dskWrite b l v
    | none => s

/-- PE sub-block. -/
def State.peRegWrite (b a : Nat) (v : Word) (s : State) : State :=
  match a with
  | 0xC00 => s.modPe b fun w => { w with inc := bit v 31, addr := fld v 2 9, past := false }
  | 0xC04 => s.peWrite b v
  | 0xC08 => if bit v 0 then s.modPe b fun w => { w with err := false, errCode := 0 } else s
  | 0xC14 => s.each ((List.range 8).filter fun l => bit v l) fun l => State.modChan b l fun c => { c with clampSeen := false }
  | 0xC18 => s.release b v
  | _ => s

/-- A write of BENCH_STRM_PROD: the _LO word is held for its writer, the _HI word acts (R157, R392). -/
def State.prodHalf (r b : Nat) (hi : Bool) (v : Word) (s : State) : State :=
  if !hi then s.modReader r fun h => { h with prodLo := tput h.prodLo b v }
  else
    let lo := tfind (s.reader r).prodLo b
    (s.modReader r fun h => { h with prodLo := tdel h.prodLo b }).prodWrite b (lo.map fun l => (join64 v l).toNat)

/-- STRM sub-block. -/
def State.strmRegWrite (r b a : Nat) (v : Word) (s : State) : State :=
  match a with
  | 0xE04 => s.strmCtrl b v
  | 0xE08 => (s.modStrm b fun t => { t with cfg := { t.cfg with lowater := v } }).lowUpdate b
  | 0xE18 => s.prodHalf r b false v
  | 0xE1C => s.prodHalf r b true v
  | 0xE38 => s.modStrm b fun t => t.statusWrite v
  | 0xE44 => s.modStrm b fun t => { t with discard := t.discard.write v }
  | 0xE50 => s.modStrm b fun t => { t with lndInc := bit v 31, lndAddr := fld v 2 8 }
  | _ => s

/-- A register of bench b. -/
def State.benchWrite (r b a : Nat) (v : Word) (s : State) : State :=
  if a < 0x400 then s.seqWrite b a v
  else if a < 0x800 then s.apgRegWrite b a v
  else if a < 0xC00 then s.tmgRegWrite b a v
  else if a < 0xE00 then s.peRegWrite b a v
  else s.strmRegWrite r b a v

/-! ## The whole map -/

/-- What an accepted write of a register does. Read-only fields discard it (R9). -/
def State.regWrite (w : Who) (a : Nat) (v : Word) (s : State) : State :=
  if a < 0x1000 then s.topWrite a v
  else if a < 0x2000 then s.clkWrite (a - 0x1000) v
  else if a < 0x3000 then s.pwrWrite (a - 0x2000) v
  else if a < 0x4000 then s.fltWrite (a - 0x3000) v
  else if a < 0x5000 then s.timeWrite (a - 0x4000) v
  else if a < 0x6000 then s.guyWrite (a - 0x5000) v
  else if a < 0x7000 then s.hostRegWrite ((a - 0x6000) / 0x400) ((a - 0x6000) % 0x400) v
  else if a < 0x8000 then s.spimWrite w (a - 0x7000) v
  else if a < 0x9000 then s.imgWrite (a - 0x8000) v
  else if a < 0xA000 then s.secWrite (a - 0x9000) v
  else if a < 0xB000 then s.metRegWrite (a - 0xA000) v
  else if a < 0xC000 then s.monRegWrite (a - 0xB000) v
  else if a < 0x10000 then s.trigxWrite w (a - 0xC000) v
  else if a < 0x20000 then
    let u := (a - 0x10000) / 0x800
    match (a - 0x10000) % 0x800 with
    | 0x58 => s.acqRdWrite (whoIx w) u false v
    | 0x5C => s.acqRdWrite (whoIx w) u true v
    | o => s.acqWrite u o v
  else if a < 0x30000 then s.raeWrite ((a - 0x20000) / 0x400) ((a - 0x20000) % 0x400) v
  else if 0x100000 ≤ a ∧ a < 0x140000 then s.benchWrite (whoIx w) ((a - 0x100000) / 0x1000) ((a - 0x100000) % 0x1000) v
  else s

/-- A write, while an image is committed, of a word that the commit loads: discarded, with the block's refusal flag (R254). An
access past a window's end or at a reserved word sets ADDR, as it always does (R68, R92, R149, R298). -/
def State.commitRefuse (a : Nat) (s : State) : State :=
  if 0x100000 ≤ a ∧ a < 0x140000 then
    let b := (a - 0x100000) / 0x1000
    let o := a % 0x1000
    if o < 0x400 then s.modSeq b fun q => { q with wrRefused := true }
    else if o = 0x464 then
      let c := (s.bench b).apg.clutOff
      (s.apgErr b (if c = 0x4000 then 5 else 4) c).clutStep b
    else if o = 0x46C then
      (s.apgErr b (if (s.bench b).apg.preBad then 5 else 4) (s.bench b).apg.preOff).preStep b
    else if o < 0x800 then s.apgErr b 4 o
    else if o = 0x814 then
      let c := (s.bench b).tmg.off
      (s.tmgErr b (if c = 0x8000 || !libWord c then 9 else 7) c).tmgStep b
    else if o < 0xC00 then s.tmgErr b 7 o
    else if o = 0xC04 then
      let c := (s.bench b).pe.off
      (s.peErr b (if c = 0x800 || ((s.lane b (c / 0x100)).get (c % 0x100)).isNone then 6 else 4) c).peStep b
    else s.prodRefuse b
  else if 0x3000 ≤ a ∧ a < 0x4000 then s.fltErr
  else if a = 0x7074 then (s.spimErr (if s.spim.frmPast || !frmWord (s.spim.frmAddr % 64) then 4 else 2)).frmStep
  else if 0x7000 ≤ a ∧ a < 0x8000 then s.spimErr 2
  else s

/-- Registers that take writes among the words that a commit loads; deskew words only where the image holds them. -/
def State.commitBlocks (s : State) (a : Nat) : Bool :=
  let o := a % 0x1000
  s.img.stg == .committing && loadedWord a &&
    if 0x100000 ≤ a ∧ a < 0x140000 then
      (o == 0x010 || o == 0x014 || (decide (0x040 ≤ o) && decide (o < 0x080)) || (decide (0x144 ≤ o) && decide (o < 0x180)) ||
        (decide (0x400 ≤ o) && decide (o < 0x808))) || o == 0x814 ||
        (decide (0x840 ≤ o) && decide (o < 0x860) && (s.img.staged.bind fun c => c.content.bind fun i => i.deskew).isSome) ||
        o == 0xC04 || o == 0xE08 || o == 0xE18 || o == 0xE1C
    else (decide (0x3060 ≤ a) && decide (a < 0x3088)) || a == 0x5000 || a == 0x7074 ||
      (decide (0x7100 ≤ a) && decide (a < 0x7140)) || (decide (0xC000 ≤ a) && decide (a < 0xD580) && a % 0x20 == 0x1C)

/-- Something is implemented at an address. -/
def State.implemented (s : State) (w : Who) (a : Nat) : Bool :=
  a % 4 == 0 && ((decide (winBase ≤ a) && decide (a < winEnd)) || (s.regRead w a).1.isSome)

/-- One word written: where nothing is served or implemented, or where the rights do not allow it, it is discarded and
reported. MSPI restricted to read-only is denied every write (R287). The registers of an absent port discard writes without any
other flag (R387). -/
def State.writeWord (w : Who) (a : Nat) (v : Word) (s : State) : State :=
  let s := if w = .mspi ∧ s.spim.rdonly then s.denied w a else s
  if !s.served a then s.sayOffline w
  else if !s.implemented w a then
    let s := s.sayUnmapped w
    if 0xB000 ≤ a ∧ a < 0xC000 ∧ s.allows w .admin then s.monRefuse 5 (a - 0xB000) else s
  else
    if s.absent a then s
    else if !s.allows w (s.right a) then s.denied w a
    else if s.commitBlocks a then s.commitRefuse a
    else s.regWrite w a v

/-- A register write from a port or over MSPI. -/
def State.busWrite (w : Who) (a : Nat) (v : Word) (s : State) : State :=
  if s.canReach w then s.writeWord w a v else s

/-- A register write from a port whose byte enables may not all be set (R265). -/
def State.busWriteBytes (w : Who) (a : Nat) (v : Word) (full : Bool) (s : State) : State :=
  match w with
  | .port p =>
    if full || !s.canReach w then s.busWrite w a v else s.portStatus p fun x => { x with badSize := true }
  | .mspi => s.busWrite w a v

end Sys2Proof.Machine
end

