-- ==== Sys2Proof/Machine/Mspi.lean ====
section
/-! DEFINITION. Frames of the management port (R281 to R289, R391, R392) and MET frames of an undefined code (R222). -/

namespace Sys2Proof.Machine

/-- Last byte address of a word of the register map (R286). -/
def mapTop : Nat := 0xFFFFFC

/-- OP codes of a command byte (R282). -/
def opRead : Nat := 1
def opWrite : Nat := 2
def opReadInc : Nat := 3
def opWriteInc : Nat := 4
def opStatus : Nat := 5

/-- A frame begins: its status byte reports on it alone (R285). -/
def State.mspiBegin (s : State) : State :=
  s.modSpim fun x => { x with fUnmapped := false, fDenied := false, fOffline := false }

/-- A frame's addresses: n times the same, or upward in steps of 4 (R282). -/
def burst (inc : Bool) (addr n : Nat) : List Nat := (List.range n).map fun i => if inc then addr + 4 * i else addr

/-- The reads of a frame in order; a word past the map is not read and is sent as zero (R286). -/
def State.mspiReads : List Nat → State → List Word × State
  | [], s => ([], s)
  | a :: r, s =>
    if mapTop < a then let (ws, t) := State.mspiReads r s; (0 :: ws, t)
    else
      let (v, s) := s.readWord .mspi a
      let (ws, t) := State.mspiReads r s
      (v :: ws, t)

/-- The writes of a frame in order; a word past the map is discarded. -/
def State.mspiWrites : List (Nat × Word) → State → State
  | [], s => s
  | (a, v) :: r, s => State.mspiWrites r (if mapTop < a then s else s.writeWord .mspi a v)

/-- n words whose value the spec leaves open: read words of a frame that makes no access for BADCMD (log 4). -/
def State.openWords : Nat → State → List Word × State
  | 0, s => ([], s)
  | n + 1, s =>
    let (v, s) := s.free
    let (ws, s) := State.openWords n s
    (wd v :: ws, s)

/-- The status byte of a frame (R285). -/
def Spim.frameStatus (x : Spim) (crcBad bad past : Bool) : Byte :=
  let b (c : Bool) (k : Nat) : Nat := if c then 2 ^ k else 0
  let ok := !(crcBad || x.fUnmapped || x.fDenied || past || x.fOffline || bad)
  BitVec.ofNat 8 (b ok 0 + b crcBad 1 + b x.fUnmapped 2 + b x.fDenied 3 + b past 4 + b x.fOffline 5 + b x.prevErr 6 + b bad 7)

/-- The device bytes of a frame: for a read the turnaround and its words, then status and CRC_D (R283, R284). -/
def State.mspiAnswer (words : Option (List Word)) (crcBad bad past : Bool) (s : State) : State :=
  let st := s.spim.frameStatus crcBad bad past
  let body := ((words.getD []).flatMap wordMsb) ++ [st]
  let turn : List Byte := if words.isSome then [0] else []
  s.modSpim fun x => { x with
    response := turn ++ body ++ [crc8 body], prevErr := false, fUnmapped := false, fDenied := false, fOffline := false }

/-- A frame whose OP is defined makes no access: its address is not aligned, or a STATUS frame names one or more words. -/
def badFrame (op cnt addr : Nat) : Bool := addr % 4 != 0 || (op == opStatus && (addr != 0 || cnt != 0))

/-- The response of a read frame of which only some words were read before MSPI_CS_N rose: it ends there (R289). -/
def State.mspiCut (cut : Option Nat) (s : State) : State :=
  match cut with
  | some n => s.modSpim fun x => { x with response := x.response.take (1 + 4 * n) }
  | none => s

/-- A whole frame of a read kind: N = cnt + 1 words, or MSPI_STATUS. Where MSPI_CS_N rises in the device bytes, cut is the number
of words that have been read by then, and the others are not read (R289). -/
def State.mspiReadFrame (op cnt : Nat) (addr : BitVec 24) (crc : Byte) (cut : Option Nat) (s : State) : State :=
  if s.top.porstLow then s
  else
    let s := s.mspiBegin
    let a := addr.toNat
    let bad := badFrame op cnt a
    if crc8 (hostBytes (32 * op + cnt) addr []) ≠ crc then
      ((s.mspiAnswer (some (List.replicate (cnt + 1) 0)) true bad false).modSpim fun x =>
        { x with crcErr := x.crcErr.add 1 }).mspiCut cut
    else if bad then
      let (ws, s) := s.openWords (cnt + 1)
      (s.mspiAnswer (some ws) false true false).mspiCut cut
    else
      let as := (if op = opStatus then [0x7000] else burst (op == opReadInc) a (cnt + 1)).take (cut.getD (cnt + 1))
      let (ws, s) := s.mspiReads as
      ((s.modReader 4 fun h => { h with data := ws.getLastD h.data }).mspiAnswer (some ws) false false
        (as.any (mapTop < ·))).mspiCut cut

/-- A whole frame of a write kind. A list that no frame holds, of no word or of more than 32, is no frame. -/
def State.mspiWriteFrame (op : Nat) (addr : BitVec 24) (data : List Word) (crc : Byte) (s : State) : State :=
  if s.top.porstLow || data.isEmpty || decide (32 < data.length) then s
  else
    let s := s.mspiBegin
    let a := addr.toNat
    let cnt := data.length - 1
    let bad := badFrame op cnt a
    if crc8 (hostBytes (32 * op + cnt) addr data) ≠ crc then
      (s.mspiAnswer none true bad false).modSpim fun x => { x with crcErr := x.crcErr.add 1 }
    else if bad then s.mspiAnswer none false true false
    else
      let as := burst (op == opWriteInc) a data.length
      (s.mspiWrites (as.zip data)).mspiAnswer none false false (as.any (mapTop < ·))

/-- A whole frame whose OP is undefined: no access is made, and the status byte follows its CRC_H (log 60). -/
def State.mspiNoOp (cmd : Byte) (addr : BitVec 24) (data : List Word) (crc : Byte) (s : State) : State :=
  if s.top.porstLow then s
  else if crc8 (hostBytes cmd.toNat addr data) ≠ crc then
    (s.mspiBegin.mspiAnswer none true true false).modSpim fun x => { x with crcErr := x.crcErr.add 1 }
  else s.mspiBegin.mspiAnswer none false true false

/-- A frame by its command byte: MSPI_UNDEFINED_OP, whose address may be unaligned or whose STATUS may be malformed. -/
def State.mspiAnyFrame (cmd : Byte) (addr : BitVec 24) (data : List Word) (crc : Byte) (s : State) : State :=
  let op := cmd.toNat / 32
  let cnt := cmd.toNat % 32
  if op = opRead ∨ op = opReadInc ∨ op = opStatus then s.mspiReadFrame op cnt addr crc none
  else if op = opWrite ∨ op = opWriteInc then (if data.length = cnt + 1 then s.mspiWriteFrame op addr data crc else s)
  else s.mspiNoOp cmd addr data crc

/-- MSPI_CS_N rises before a frame is complete: a frame error clears MSPI's holding tag and held words (R289, R391, R392). -/
def State.mspiAbort (s : State) : State :=
  if s.top.porstLow then s
  else (s.modSpim fun x => { x with frameErr := x.frameErr.add 1, prevErr := true }).modReader 4 fun h =>
    { h with tag := none, prodLo := [], rdLo := [] }

/-- Edges arrive after the last bit of CRC_D (R289). -/
def State.mspiOverclock (s : State) : State :=
  if s.top.porstLow then s else s.modSpim fun x => { x with overclk := true, prevErr := true }

/-- Address of a register of bench b at an offset of its block (R394). -/
def benchAt (b : BenchIx) (off : Nat) : Nat := 0x100000 + 0x1000 * b.val + off

/-- The command codes that the MET port defines (R222). -/
def metCodes : List Nat := [1, 2, 3, 4, 5, 6, 0xF]

/-- A MET frame of an undefined code is refused; a defined code is another command's. -/
def State.metUndefined (cmd : Byte) (addr : BitVec 24) (data : List Word) (crc : Byte) (s : State) : State :=
  if metCodes.contains cmd.toNat then s else s.metFrame cmd.toNat addr data crc false id

end Sys2Proof.Machine
end

