-- ==== Sys2Proof/Machine/CmdAcq.lean ====
section
/-! DEFINITION. Meanings of the commands: triggers, acquisition and monitors. One definition for each row. -/

namespace Sys2Proof.Machine

/-- TRIG_IN_EDGE (R195). -/
def execTrigInEdge (i : Fin 4) (rising : Bool) (s : State) : Host.Outcome State Fault Refusal :=
  .next (s.trigInEdge i rising)

/-- GUY_TRIGGER_EDGE (R195). -/
def execGuyTriggerEdge (i : Fin 4) (s : State) : Host.Outcome State Fault Refusal :=
  .next (s.guyTriggerEdge i)

/-- TRIGX_SWTRIG (R197). A write of TRIGX_SWTRIG. -/
def execTrigxSwtrig (w : Who) (v : Word) (s : State) : Host.Outcome State Fault Refusal :=
  .next (s.busWrite w 0xD800 v)

/-- TRIG_OUT_END (R196). -/
def execTrigOutEnd (out : Fin 8) (s : State) : Host.Outcome State Fault Refusal :=
  .next (s.trigOutEnd out)

/-- ACQ_ARM (R201). A write of ACQ_CTRL. -/
def execAcqArm (w : Who) (u : UnitIx) (v : Word) (s : State) : Host.Outcome State Fault Refusal :=
  .next (s.busWrite w (0x10000 + 0x800 * u + 0x30) v)

/-- ACQ_STOP (R211). A write of ACQ_CTRL. -/
def execAcqStop (w : Who) (u : UnitIx) (v : Word) (s : State) : Host.Outcome State Fault Refusal :=
  .next (s.busWrite w (0x10000 + 0x800 * u + 0x30) v)

/-- ACQ_START (R202). -/
def execAcqStart (u : UnitIx) (s : State) : Host.Outcome State Fault Refusal :=
  .next (s.acqStart u)

/-- ACQ_FRAME (R200). -/
def execAcqFrame (u : UnitIx) (s : State) : Host.Outcome State Fault Refusal :=
  .next (s.acqFrame u)

/-- ACQ_HEADER_WRITTEN (R207). -/
def execAcqHeaderWritten (u : UnitIx) (s : State) : Host.Outcome State Fault Refusal :=
  .next (s.acqHeader u)

/-- ACQ_RD_LO_WRITE (R212). A write of ACQ_RD_LO. -/
def execAcqRdLoWrite (w : Who) (u : UnitIx) (v : Word) (s : State) : Host.Outcome State Fault Refusal :=
  .next (s.busWrite w (0x10000 + 0x800 * u + 0x58) v)

/-- ACQ_RD_HI_WRITE (R212). A write of ACQ_RD_HI. -/
def execAcqRdHiWrite (w : Who) (u : UnitIx) (v : Word) (s : State) : Host.Outcome State Fault Refusal :=
  .next (s.busWrite w (0x10000 + 0x800 * u + 0x5C) v)

/-- MON_ENABLE (R233). A write of MON_CFG. -/
def execMonEnable (w : Who) (m : MonIx) (v : Word) (s : State) : Host.Outcome State Fault Refusal :=
  .next (s.busWrite w (0xB000 + 0x20 * m) v)

/-- MON_SETTLE (R233). -/
def execMonSettle (m : MonIx) (volts : Word) (s : State) : Host.Outcome State Fault Refusal :=
  .next (s.monSettle m volts)

/-- MON_TRIP (R234). -/
def execMonTrip (m : MonIx) (volts : Word) (s : State) : Host.Outcome State Fault Refusal :=
  .next (s.monTrip m volts).settle

/-- MON_PERIOD_END (R235). -/
def execMonPeriodEnd (m : MonIx) (s : State) : Host.Outcome State Fault Refusal :=
  .next (s.monPeriodEnd m)

/-- MON_BLANK_END (R232). -/
def execMonBlankEnd (m : MonIx) (s : State) : Host.Outcome State Fault Refusal :=
  .next (s.monBlankEnd m)

/-- MON_RAMP_START (R230). A write of MON_RAMP_CTRL. -/
def execMonRampStart (w : Who) (m : MonIx) (v : Word) (s : State) : Host.Outcome State Fault Refusal :=
  .next (s.busWrite w (0xB01C + 0x20 * m) v)

/-- MON_RAMP_STEP (R230). -/
def execMonRampStep (m : MonIx) (s : State) : Host.Outcome State Fault Refusal :=
  .next (s.monRampStep m)

/-- MON_RETURN_TO_NORMAL (R231). -/
def execMonReturnToNormal (m : MonIx) (volts : Word) (s : State) : Host.Outcome State Fault Refusal :=
  .next (s.monReturn m volts)

end Sys2Proof.Machine
end

