-- ==== Sys2Proof/Machine/CmdBus.lean ====
section
/-! DEFINITION. Meanings of the commands: register accesses and the streams, windows and engines they reach. One definition for each row. -/

namespace Sys2Proof.Machine

/-- REGISTER_WRITE (R9). A register write, with the byte enables all set or not. -/
def execRegisterWrite (w : Who) (addr : BitVec 24) (v : Word) (full : Bool) (s : State) : Host.Outcome State Fault Refusal :=
  .next (s.busWriteBytes w addr.toNat v full)

/-- COUNTER_SNAPSHOT_READ (R391). A register read; the _LO word of a pair holds the _HI word. -/
def execCounterSnapshotRead (w : Who) (addr : BitVec 24) (s : State) : Host.Outcome State Fault Refusal :=
  .next (s.busRead w addr.toNat)

/-- TIME_SNAPSHOT_READ (R301). A read of TIME_NS. -/
def execTimeSnapshotRead (w : Who) (s : State) : Host.Outcome State Fault Refusal :=
  .next (s.busRead w 0x4000)

/-- STORE_WINDOW_READ (R394). A read in a window. -/
def execStoreWindowRead (w : Who) (addr : BitVec 24) (s : State) : Host.Outcome State Fault Refusal :=
  .next (s.busRead w addr.toNat)

end Sys2Proof.Machine
end

