-- ==== Sys2Proof/Machine/CmdHost.lean ====
section
/-! DEFINITION. Meanings of the commands: image control, staging, jobs, ports and apertures. One definition for each row. -/

namespace Sys2Proof.Machine

/-- LOAD (R245). A write of IMG_CTRL. -/
def execImgLoad (w : Who) (v : Word) (s : State) : Host.Outcome State Fault Refusal :=
  .next (s.busWrite w (0x8000) v)

/-- LOAD_COMPLETE (R245). -/
def execLoadComplete (copied : Option Container) (s : State) : Host.Outcome State Fault Refusal :=
  .next (s.loadDone copied)

/-- CHECK (R246). A write of IMG_CTRL. -/
def execImgCheck (w : Who) (v : Word) (s : State) : Host.Outcome State Fault Refusal :=
  .next (s.busWrite w (0x8000) v)

/-- CHECK_COMPLETE (R246). -/
def execCheckComplete (s : State) : Host.Outcome State Fault Refusal :=
  .next s.checkDone

/-- COMMIT (R254). A write of IMG_CTRL. -/
def execImgCommit (w : Who) (v : Word) (s : State) : Host.Outcome State Fault Refusal :=
  .next (s.busWrite w (0x8000) v)

/-- COMMIT_COMPLETE (R254). -/
def execCommitComplete (s : State) : Host.Outcome State Fault Refusal :=
  .next s.commitDone.settle

/-- DISCARD (R245). A write of IMG_CTRL. -/
def execImgDiscard (w : Who) (v : Word) (s : State) : Host.Outcome State Fault Refusal :=
  .next (s.busWrite w (0x8000) v)

/-- PUSH (R256). A write of IMG_STG_CTRL. -/
def execStgPush (w : Who) (p : PortIx) (v : Word) (s : State) : Host.Outcome State Fault Refusal :=
  .next (s.busWrite w (0x8108 + 0x20 * p) v)

/-- STAGING_CLEAR (R256). A write of IMG_STG_CTRL. -/
def execStagingClear (w : Who) (p : PortIx) (v : Word) (s : State) : Host.Outcome State Fault Refusal :=
  .next (s.busWrite w (0x8108 + 0x20 * p) v)

/-- APPLY_ARM (R258). -/
def execApplyArm (p : PortIx) (tag : BitVec 16) (s : State) : Host.Outcome State Fault Refusal :=
  .next (s.applyArm p tag)

/-- HOST_SQ_TAIL_WRITE (R267). A write of HOST_SQ_TAIL. -/
def execHostSqTailWrite (w : Who) (p : PortIx) (v : Word) (s : State) : Host.Outcome State Fault Refusal :=
  .next (s.busWrite w (0x601C + 0x400 * p) v)

/-- DESCRIPTOR_FETCH (R268). -/
def execDescriptorFetch (p : PortIx) (words : List Word) (s : State) : Host.Outcome State Fault Refusal :=
  .next (s.fetchDescriptor p words)

/-- QUEUE_ENABLE (R267). A write of HOST_Q_CTRL. -/
def execQueueEnable (w : Who) (p : PortIx) (v : Word) (s : State) : Host.Outcome State Fault Refusal :=
  .next (s.busWrite w (0x6000 + 0x400 * p) v)

/-- QUEUE_DISABLE (R269). A write of HOST_Q_CTRL. -/
def execQueueDisable (w : Who) (p : PortIx) (v : Word) (s : State) : Host.Outcome State Fault Refusal :=
  .next (s.busWrite w (0x6000 + 0x400 * p) v)

/-- QUIESCE_DONE (R269). -/
def execQuiesceDone (p : PortIx) (s : State) : Host.Outcome State Fault Refusal :=
  .next (s.quiesceDone p).settle

/-- RUN_START (R272). -/
def execRunStart (p : PortIx) (tag : BitVec 16) (s : State) : Host.Outcome State Fault Refusal :=
  .next ((s.runStart p tag).agreeUpdate)

/-- RUN_STOP (R272). -/
def execRunStop (p : PortIx) (tag : BitVec 16) (s : State) : Host.Outcome State Fault Refusal :=
  .next ((s.runStop p tag).agreeUpdate)

/-- STREAM (R157). -/
def execStreamJob (p : PortIx) (tag : BitVec 16) (data : Option (List Byte)) (s : State) : Host.Outcome State Fault Refusal :=
  .next (s.streamJob p tag data)

/-- FETCH (R272). -/
def execFetchJob (p : PortIx) (tag : BitVec 16) (data : Option (List Byte)) (s : State) : Host.Outcome State Fault Refusal :=
  .next (s.fetchJob p tag data)

/-- MEASURE (R272). -/
def execMeasureJob (p : PortIx) (tag : BitVec 16) (ok : Bool) (s : State) : Host.Outcome State Fault Refusal :=
  .next (s.measureJob p tag ok)

/-- CAL (R88). -/
def execCalJob (p : PortIx) (tag : BitVec 16) (s : State) : Host.Outcome State Fault Refusal :=
  .next (s.calJob p tag)

/-- CAL_COMPLETE (R89). -/
def execCalComplete (p : PortIx) (tag : BitVec 16) (sweeps : List TdrSweep) (s : State) : Host.Outcome State Fault Refusal :=
  .next (s.calDone p tag sweeps)

/-- APPLY (R258). -/
def execApplyJob (p : PortIx) (tag : BitVec 16) (s : State) : Host.Outcome State Fault Refusal :=
  .next (s.applyJob p tag)

/-- REPAIR_REPORT (R272). -/
def execRepairReport (p : PortIx) (tag : BitVec 16) (ok : Bool) (s : State) : Host.Outcome State Fault Refusal :=
  .next (s.reportJob p tag ok)

/-- SCHEDULE (R310). -/
def execScheduleJob (p : PortIx) (tag : BitVec 16) (s : State) : Host.Outcome State Fault Refusal :=
  .next (s.scheduleJob p tag)

/-- FENCE (R35). -/
def execFenceJob (p : PortIx) (tag : BitVec 16) (s : State) : Host.Outcome State Fault Refusal :=
  .next (s.fenceJob p tag)

/-- JOB_COMPLETE (R274). -/
def execJobComplete (p : PortIx) (tag : BitVec 16) (s : State) : Host.Outcome State Fault Refusal :=
  .next (s.jobComplete p tag)

/-- APERTURE_READ (R266). -/
def execApertureRead (p : PortIx) (addr : BitVec 36) (len : Nat) (s : State) : Host.Outcome State Fault Refusal :=
  .next (s.apertureRead p addr.toNat len)

/-- APERTURE_WRITE (R266). -/
def execApertureWrite (p : PortIx) (addr : BitVec 36) (data : List Byte) (s : State) : Host.Outcome State Fault Refusal :=
  .next (s.apertureWrite p addr.toNat data)

/-- PORT_LOSS (R279). -/
def execPortLoss (p : PortIx) (s : State) : Host.Outcome State Fault Refusal :=
  .next (s.portLoss p).settle

/-- LINK_UP (R263). -/
def execLinkUp (p : PortIx) (width : BitVec 5) (speed : BitVec 4) (s : State) : Host.Outcome State Fault Refusal :=
  .next (s.linkUp p width speed)

end Sys2Proof.Machine
end

