-- ==== Sys2Proof/Machine/CmdMet.lean ====
section
/-! DEFINITION. Meanings of the commands: the metrology island. One definition for each row. -/

namespace Sys2Proof.Machine

/-- REF_CHECK (R214). -/
def execRefCheck (diff : Word) (s : State) : Host.Outcome State Fault Refusal :=
  .next (s.refCheck diff)

/-- READBACK_START (R217). A write of MET_RB_CTRL. -/
def execReadbackStart (w : Who) (p : PortIx) (v : Word) (s : State) : Host.Outcome State Fault Refusal :=
  .next (s.busWrite w (0xA104 + 0x20 * p) v)

/-- READBACK_DONE (R217). -/
def execReadbackDone (codes : List (BitVec 24)) (s : State) : Host.Outcome State Fault Refusal :=
  .next (s.rbDone codes)

/-- MET_READ (R222). -/
def execMetRead (addr : BitVec 24) (n : Nat) (s : State) : Host.Outcome State Fault Refusal :=
  .next (s.metRead addr.toNat n)

/-- MET_WRITE (R222). -/
def execMetWrite (addr : BitVec 24) (data : List Word) (crc : Byte) (s : State) : Host.Outcome State Fault Refusal :=
  .next (s.metWrite addr data crc)

/-- OPEN (R223). -/
def execOpenSession (addr : BitVec 24) (crc : Byte) (s : State) : Host.Outcome State Fault Refusal :=
  .next (s.openSession addr crc)

/-- CLOSE (R223). -/
def execCloseSession (addr : BitVec 24) (data : List Word) (crc : Byte) (s : State) : Host.Outcome State Fault Refusal :=
  .next (s.closeSession addr data crc)

/-- ABORT (R223). -/
def execAbortSession (addr : BitVec 24) (crc : Byte) (s : State) : Host.Outcome State Fault Refusal :=
  .next (s.abortFrame addr crc)

/-- MEASURE_FRAME (R222). -/
def execMeasureFrame (addr : BitVec 24) (data : List Word) (codes : List (BitVec 24)) (crc : Byte) (s : State) :
    Host.Outcome State Fault Refusal :=
  .next (s.measureFrame addr data codes crc)

/-- MET_RESET (R215). -/
def execMetReset (addr : BitVec 24) (crc : Byte) (s : State) : Host.Outcome State Fault Refusal :=
  .next (s.metReset addr crc)

/-- CAL_EN_LOW (R223). -/
def execCalEnLow (s : State) : Host.Outcome State Fault Refusal :=
  .next s.calEnLow

/-- VMET_LOSS (R215). -/
def execVmetLoss (s : State) : Host.Outcome State Fault Refusal :=
  .next s.vmetLoss

/-- METROLOGY_RESET_DONE (R220). -/
def execMetrologyResetDone (s : State) : Host.Outcome State Fault Refusal :=
  .next s.metUp

/-- MIRROR_LOAD (R219). -/
def execMirrorLoad (wrong : List (Nat × Word)) (s : State) : Host.Outcome State Fault Refusal :=
  .next (s.mirrorLoad wrong)

/-- MET_ANSWER_TIMEOUT (R364). -/
def execMetAnswerTimeout (s : State) : Host.Outcome State Fault Refusal :=
  .next s.metTimeout

/-- MET_FRAME_ABORT (R222). -/
def execMetFrameAbort (s : State) : Host.Outcome State Fault Refusal :=
  .next s.metAbort

/-- MET_UNDEFINED_COMMAND (R222). -/
def execMetUndefinedCommand (cmd : Byte) (addr : BitVec 24) (data : List Word) (crc : Byte) (s : State) : Host.Outcome State Fault Refusal :=
  .next (s.metUndefined cmd addr data crc)

end Sys2Proof.Machine
end

