-- ==== Sys2Proof/Machine/CmdPin.lean ====
section
/-! DEFINITION. Meanings of the commands: the pin channels, timing, pattern generators, streams and repair engines. One definition for each row. -/

namespace Sys2Proof.Machine

/-- RELEASE (R57). A write of BENCH_PE_RELEASE. -/
def execLaneRelease (w : Who) (b : BenchIx) (v : Word) (s : State) : Host.Outcome State Fault Refusal :=
  .next (s.busWrite w (benchAt b 0xC18) v)

/-- BENCH_PE_DATA_WRITE (R66). A write of BENCH_PE_DATA. -/
def execBenchPeDataWrite (w : Who) (b : BenchIx) (v : Word) (s : State) : Host.Outcome State Fault Refusal :=
  .next (s.busWrite w (benchAt b 0xC04) v)

/-- BENCH_PE_DATA_READ (R68). A read of BENCH_PE_DATA. -/
def execBenchPeDataRead (w : Who) (b : BenchIx) (s : State) : Host.Outcome State Fault Refusal :=
  .next (s.busRead w (benchAt b 0xC04))

/-- HV_MODE_SAFE_END (R44). -/
def execHvModeSafeEnd (b : BenchIx) (s : State) : Host.Outcome State Fault Refusal :=
  .next (s.hvEnd b)

/-- DISCHARGE_PHASE_END (R56). -/
def execDischargePhaseEnd (b : BenchIx) (s : State) : Host.Outcome State Fault Refusal :=
  .next (s.dischargeDone b)

/-- CLAMP_ENTER (R50). -/
def execClampEnter (c : ChanIx) (s : State) : Host.Outcome State Fault Refusal :=
  .next (s.clampIn (c / 8) (c % 8))

/-- CLAMP_EXIT (R50). -/
def execClampExit (c : ChanIx) (s : State) : Host.Outcome State Fault Refusal :=
  .next (s.clampOut (c / 8) (c % 8))

/-- ADC_RESULT (R53). -/
def execAdcResult (c : ChanIx) (codes : List (BitVec 18)) (s : State) : Host.Outcome State Fault Refusal :=
  .next (s.adcNext (c / 8) (c % 8) codes)

/-- BENCH_TMG_SLOT_WRITE (R82). A write of BENCH_TMG_SLOT_LO or _HI. -/
def execBenchTmgSlotWrite (w : Who) (b : BenchIx) (hi : Bool) (v : Word) (s : State) : Host.Outcome State Fault Refusal :=
  .next (s.busWrite w (benchAt b (if hi then 0x804 else 0x800)) v)

/-- BENCH_TMG_DATA_WRITE (R80). A write of BENCH_TMG_DATA. -/
def execBenchTmgDataWrite (w : Who) (b : BenchIx) (v : Word) (s : State) : Host.Outcome State Fault Refusal :=
  .next (s.busWrite w (benchAt b 0x814) v)

/-- BENCH_TMG_DATA_READ (R92). A read of BENCH_TMG_DATA. -/
def execBenchTmgDataRead (w : Who) (b : BenchIx) (s : State) : Host.Outcome State Fault Refusal :=
  .next (s.busRead w (benchAt b 0x814))

/-- APG_CLUT_DATA_ACCESS (R149). A write or read of APG_CLUT_DATA. -/
def execApgClutDataAccess (w : Who) (b : BenchIx) (wr : Option Word) (s : State) : Host.Outcome State Fault Refusal :=
  .next <| match wr with
    | some v => s.busWrite w (benchAt b 0x464) v
    | none => s.busRead w (benchAt b 0x464)

/-- APG_PRE_DATA_ACCESS (R147). A write or read of APG_PRE_DATA. -/
def execApgPreDataAccess (w : Who) (b : BenchIx) (wr : Option Word) (s : State) : Host.Outcome State Fault Refusal :=
  .next <| match wr with
    | some v => s.busWrite w (benchAt b 0x46C) v
    | none => s.busRead w (benchAt b 0x46C)

/-- BENCH_STRM_PROD_LO_WRITE (R157). A write of BENCH_STRM_PROD_LO. -/
def execBenchStrmProdLoWrite (w : Who) (b : BenchIx) (v : Word) (s : State) : Host.Outcome State Fault Refusal :=
  .next (s.busWrite w (benchAt b 0xE18) v)

/-- BENCH_STRM_PROD_HI_WRITE (R157). A write of BENCH_STRM_PROD_HI. -/
def execBenchStrmProdHiWrite (w : Who) (b : BenchIx) (v : Word) (s : State) : Host.Outcome State Fault Refusal :=
  .next (s.busWrite w (benchAt b 0xE1C) v)

/-- REWIND (R158). A write of BENCH_STRM_CTRL. -/
def execStrmRewind (w : Who) (b : BenchIx) (v : Word) (s : State) : Host.Outcome State Fault Refusal :=
  .next (s.busWrite w (benchAt b 0xE04) v)

/-- EOS (R158). A write of BENCH_STRM_CTRL. -/
def execStrmEos (w : Who) (b : BenchIx) (v : Word) (s : State) : Host.Outcome State Fault Refusal :=
  .next (s.busWrite w (benchAt b 0xE04) v)

/-- BENCH_STRM_LND_DATA_READ (R160). A read of BENCH_STRM_LND_DATA. -/
def execBenchStrmLndDataRead (w : Who) (b : BenchIx) (s : State) : Host.Outcome State Fault Refusal :=
  .next (s.busRead w (benchAt b 0xE54))

/-- RAE_SOL_DATA_READ (R190). A read of RAE_SOL_DATA. -/
def execRaeSolDataRead (w : Who) (e : EngIx) (s : State) : Host.Outcome State Fault Refusal :=
  .next (s.busRead w (0x20000 + 0x400 * e + 0x44))

/-- ANALYSE (R188). A write of RAE_CTRL. -/
def execAnalyse (w : Who) (e : EngIx) (v : Word) (s : State) : Host.Outcome State Fault Refusal :=
  .next (s.busWrite w (0x20000 + 0x400 * e + 0x10) v)

/-- CLEAR (R188). A write of RAE_CTRL. -/
def execRaeClear (w : Who) (e : EngIx) (v : Word) (s : State) : Host.Outcome State Fault Refusal :=
  .next (s.busWrite w (0x20000 + 0x400 * e + 0x10) v)

/-- SEARCH_DONE (R188). -/
def execSearchDone (e : EngIx) (s : State) : Host.Outcome State Fault Refusal :=
  .next (s.searchDone e)

end Sys2Proof.Machine
end

