-- ==== Sys2Proof/Machine/CmdSeq.lean ====
section
/-! DEFINITION. Meanings of the commands: epochs, starts, microwords and waits of the sequencers. One definition for each row. -/

namespace Sys2Proof.Machine

/-- EPOCH (R23). -/
def execEpoch (s : State) : Host.Outcome State Fault Refusal :=
  .next s.epochBegin

/-- SYNC_EDGE (R314). -/
def execSyncEdge (s : State) : Host.Outcome State Fault Refusal :=
  .next s.syncEdge

/-- GANG_START (R25). -/
def execGangStart (g : GangIx) (s : State) : Host.Outcome State Fault Refusal :=
  .next (s.gangStart g).settle

/-- NEXT (R103). -/
def execNext (g : GangIx) (s : State) : Host.Outcome State Fault Refusal :=
  .next (s.issueOp g 0).settle

/-- REPEAT (R104). -/
def execRepeatBeat (g : GangIx) (s : State) : Host.Outcome State Fault Refusal :=
  .next (s.issueOp g 1).settle

/-- LOOP_BEGIN (R105). -/
def execLoopBegin (g : GangIx) (s : State) : Host.Outcome State Fault Refusal :=
  .next (s.issueOp g 2).settle

/-- LOOP_END (R105). -/
def execLoopEnd (g : GangIx) (s : State) : Host.Outcome State Fault Refusal :=
  .next (s.issueOp g 3).settle

/-- JUMP (R103). -/
def execJump (g : GangIx) (s : State) : Host.Outcome State Fault Refusal :=
  .next (s.issueOp g 4).settle

/-- JUMP_IF (R112). -/
def execJumpIf (g : GangIx) (s : State) : Host.Outcome State Fault Refusal :=
  .next (s.issueOp g 5).settle

/-- HORIZON_STALL_END (R22). -/
def execHorizonStallEnd (g : GangIx) (s : State) : Host.Outcome State Fault Refusal :=
  .next (s.stallEnd g).settle

/-- CALL (R106). -/
def execCall (g : GangIx) (s : State) : Host.Outcome State Fault Refusal :=
  .next (s.issueOp g 6).settle

/-- RETURN (R106). -/
def execReturnOp (g : GangIx) (s : State) : Host.Outcome State Fault Refusal :=
  .next (s.issueOp g 7).settle

/-- WAIT_TRIG (R107). -/
def execWaitTrig (g : GangIx) (s : State) : Host.Outcome State Fault Refusal :=
  .next (s.issueOp g 8).settle

/-- WAIT_TRIG_RELEASE (R107). -/
def execWaitTrigRelease (g : GangIx) (s : State) : Host.Outcome State Fault Refusal :=
  .next (s.waitRelease g).settle

/-- WAIT_TRIG_TIMEOUT (R107). -/
def execWaitTrigTimeout (g : GangIx) (s : State) : Host.Outcome State Fault Refusal :=
  .next (s.waitTimeout g).settle

/-- WAIT_BEATS (R104). -/
def execWaitBeats (g : GangIx) (s : State) : Host.Outcome State Fault Refusal :=
  .next (s.issueOp g 9).settle

/-- HALT (R110). -/
def execHalt (g : GangIx) (s : State) : Host.Outcome State Fault Refusal :=
  .next (s.issueOp g 10).settle

/-- DRAIN_COMPLETE (R110). -/
def execDrainComplete (g : GangIx) (s : State) : Host.Outcome State Fault Refusal :=
  .next (s.drainDone g).settle

/-- SEG_OPEN (R161). -/
def execSegOpen (g : GangIx) (s : State) : Host.Outcome State Fault Refusal :=
  .next (s.issueOp g 11).settle

/-- GANG_SYNC (R108). -/
def execGangSync (g : GangIx) (s : State) : Host.Outcome State Fault Refusal :=
  .next (s.issueOp g 12).settle

/-- GANG_SYNC_RELEASE (R108). -/
def execGangSyncRelease (g : GangIx) (s : State) : Host.Outcome State Fault Refusal :=
  .next (s.syncRelease g).settle

/-- PSPI_SEND (R109). -/
def execPspiSend (g : GangIx) (s : State) : Host.Outcome State Fault Refusal :=
  .next (s.issueOp g 13).settle

/-- APG_LOAD (R130). -/
def execApgLoad (g : GangIx) (s : State) : Host.Outcome State Fault Refusal :=
  .next (s.issueOp g 14).settle

/-- EVENT (R109). -/
def execEventOp (g : GangIx) (s : State) : Host.Outcome State Fault Refusal :=
  .next (s.issueOp g 15).settle

/-- VECTOR_CYCLE_START (R96). -/
def execVectorCycleStart (g : GangIx) (s : State) : Host.Outcome State Fault Refusal :=
  .next (s.cycleStart g).settle

/-- KEEPALIVE_BEAT (R166). -/
def execKeepaliveBeat (g : GangIx) (s : State) : Host.Outcome State Fault Refusal :=
  .next (s.keepaliveBeat g)

/-- UNDERRUN_RESUME (R166). -/
def execUnderrunResume (g : GangIx) (s : State) : Host.Outcome State Fault Refusal :=
  .next (s.underrunResume g)

/-- RESULT_RETURN (R172). After the last result of a gang that a fault has ended, its captures close (R125, R188). -/
def execResultReturn (g : GangIx) (samples : List PinSample) (s : State) : Host.Outcome State Fault Refusal :=
  .next ((s.resultReturn g samples).faultTail g)

/-- LOG_ENTRY_WRITTEN (R180). -/
def execLogEntryWritten (site : SiteIx) (s : State) : Host.Outcome State Fault Refusal :=
  .next (s.serveWrite site)

/-- FF_REARM (R175). A write of BENCH_FF_REARM. -/
def execFfRearm (w : Who) (b : BenchIx) (v : Word) (s : State) : Host.Outcome State Fault Refusal :=
  .next (s.busWrite w (benchAt b 0x204) v)

/-- STOP (R127). A write of BENCH_SEQ_CTRL. -/
def execSeqStop (w : Who) (b : BenchIx) (v : Word) (s : State) : Host.Outcome State Fault Refusal :=
  .next (s.busWrite w (benchAt b 0x010) v)

/-- DOORBELL (R120). A write of BENCH_SEQ_CTRL. -/
def execDoorbell (w : Who) (b : BenchIx) (v : Word) (s : State) : Host.Outcome State Fault Refusal :=
  .next (s.busWrite w (benchAt b 0x010) v)

end Sys2Proof.Machine
end

