-- ==== Sys2Proof/Machine/CmdSpi.lean ====
section
/-! DEFINITION. Meanings of the commands: the serial ports. One definition for each row. -/

namespace Sys2Proof.Machine

/-- MSPI_READ (R282). -/
def execMspiRead (addr : BitVec 24) (cnt : BitVec 5) (last : ReadEnd) (s : State) :
    Host.Outcome State Fault Refusal :=
  .next (s.mspiReadFrame opRead cnt.toNat addr last.crc last.cut)

/-- MSPI_WRITE (R282). -/
def execMspiWrite (addr : BitVec 24) (data : List Word) (crc : Byte) (s : State) : Host.Outcome State Fault Refusal :=
  .next (s.mspiWriteFrame opWrite addr data crc)

/-- READ_INC (R282). -/
def execMspiReadInc (addr : BitVec 24) (cnt : BitVec 5) (last : ReadEnd) (s : State) :
    Host.Outcome State Fault Refusal :=
  .next (s.mspiReadFrame opReadInc cnt.toNat addr last.crc last.cut)

/-- WRITE_INC (R282). -/
def execMspiWriteInc (addr : BitVec 24) (data : List Word) (crc : Byte) (s : State) : Host.Outcome State Fault Refusal :=
  .next (s.mspiWriteFrame opWriteInc addr data crc)

/-- MSPI_STATUS_FRAME (R282). -/
def execMspiStatusFrame (addr : BitVec 24) (cnt : BitVec 5) (last : ReadEnd) (s : State) :
    Host.Outcome State Fault Refusal :=
  .next (s.mspiReadFrame opStatus cnt.toNat addr last.crc last.cut)

/-- MSPI_FRAME_ABORT (R289). -/
def execMspiFrameAbort (s : State) : Host.Outcome State Fault Refusal :=
  .next s.mspiAbort

/-- MSPI_OVERCLOCK (R289). -/
def execMspiOverclock (s : State) : Host.Outcome State Fault Refusal :=
  .next s.mspiOverclock

/-- MSPI_UNDEFINED_OP (R285). -/
def execMspiUndefinedOp (cmd : Byte) (addr : BitVec 24) (data : List Word) (crc : Byte) (s : State) : Host.Outcome State Fault Refusal :=
  .next (s.mspiAnyFrame cmd addr data crc)

/-- SPIM_SEND (R293). A write of SPIM_SEND. -/
def execSpimSend (w : Who) (v : Word) (s : State) : Host.Outcome State Fault Refusal :=
  .next (s.busWrite w (0x7040) v)

/-- PSPI_FRAME_START (R293). -/
def execPspiFrameStart (s : State) : Host.Outcome State Fault Refusal :=
  .next s.pspiStart

/-- PSPI_FRAME_END (R295). -/
def execPspiFrameEnd (rx : List Word) (s : State) : Host.Outcome State Fault Refusal :=
  .next (s.pspiEnd rx)

end Sys2Proof.Machine
end

