-- ==== Sys2Proof/Machine/CmdTime.lean ====
section
/-! DEFINITION. Meanings of the commands: time, guyline, clocks and power. One definition for each row. -/

namespace Sys2Proof.Machine

/-- ANNOUNCE (R303). -/
def execAnnounce (msg : AnnounceMsg) (s : State) : Host.Outcome State Fault Refusal :=
  .next (s.announce msg.id msg.interval.val)

/-- ANNOUNCE_TIMEOUT (R303). -/
def execAnnounceTimeout (s : State) : Host.Outcome State Fault Refusal :=
  .next s.announceTimeout

/-- PTP_SYNC (R304). -/
def execPtpSync (id : PtpId) (origin : Option Int) (corr : Int) (interval : Fin 9) (reqAfter : Nat) (s : State) : Host.Outcome State Fault Refusal :=
  .next (s.ptpSync id origin corr interval.val reqAfter)

/-- FOLLOW_UP (R304). -/
def execFollowUp (id : PtpId) (origin : Int) (corr : Int) (s : State) : Host.Outcome State Fault Refusal :=
  .next (s.followUp id origin corr).settle

/-- DELAY_RESP (R304). -/
def execDelayResp (id : PtpId) (t4 : Int) (corr : Int) (s : State) : Host.Outcome State Fault Refusal :=
  .next (s.delayResp id t4 corr).settle

/-- OFFSET_AGE_HOLDOVER (R308). -/
def execOffsetAgeHoldover (s : State) : Host.Outcome State Fault Refusal :=
  .next s.ageHoldover.settle

/-- STEP_ARM (R305). A write of TIME_CTRL. -/
def execStepArm (w : Who) (v : Word) (s : State) : Host.Outcome State Fault Refusal :=
  .next (s.busWrite w (0x4020) v)

/-- PPS_EDGE (R309). -/
def execPpsEdge (s : State) : Host.Outcome State Fault Refusal :=
  .next s.ppsEdge.settle

/-- PPS_OUT (R309). -/
def execPpsOut (s : State) : Host.Outcome State Fault Refusal :=
  .next s.ppsPulse

/-- PPS_OUT_END (R309). -/
def execPpsOutEnd (s : State) : Host.Outcome State Fault Refusal :=
  .next s.ppsEnd

/-- COMPARATOR_FIRE (R310). -/
def execComparatorFire (i : Fin 16) (s : State) : Host.Outcome State Fault Refusal :=
  .next (s.cmpDue i).settle

/-- GUY_AGREEMENT (R317). -/
def execGuyAgreement (s : State) : Host.Outcome State Fault Refusal :=
  .next s.agreeUpdate

/-- GUY_STROBE (R318). -/
def execGuyStrobe (s : State) : Host.Outcome State Fault Refusal :=
  .next s.guyStrobe

/-- GUY_STROBE_EDGE (R318). -/
def execGuyStrobeEdge (s : State) : Host.Outcome State Fault Refusal :=
  .next s.guyEdge

/-- GUY_STROBE_END (R318). -/
def execGuyStrobeEnd (s : State) : Host.Outcome State Fault Refusal :=
  .next s.guyStrobeEnd

/-- GUY_AGREE_TIMEOUT (R319). -/
def execGuyAgreeTimeout (s : State) : Host.Outcome State Fault Refusal :=
  .next s.guyTimeout

/-- GUY_FAULT (R320). -/
def execGuyFault (s : State) : Host.Outcome State Fault Refusal :=
  .next s.guyFault

/-- REFCLK_LOSS (R323). -/
def execRefclkLoss (s : State) : Host.Outcome State Fault Refusal :=
  .next s.refLost.settle

/-- REFCLK_RETURN (R323). -/
def execRefclkReturn (s : State) : Host.Outcome State Fault Refusal :=
  .next s.refBack

/-- PLL_LOCK (R324). -/
def execPllLock (s : State) : Host.Outcome State Fault Refusal :=
  .next s.pllLocked.settle

/-- PLL_UNLOCK (R325). -/
def execPllUnlock (s : State) : Host.Outcome State Fault Refusal :=
  .next s.pllUnlocked.settle

/-- DLL_LOCK (R333). -/
def execDllLock (b : BenchIx) (s : State) : Host.Outcome State Fault Refusal :=
  .next (s.dllLocked b).settle

/-- DLL_UNLOCK (R326). -/
def execDllUnlock (b : BenchIx) (s : State) : Host.Outcome State Fault Refusal :=
  .next (s.dllUnlocked b).settle

/-- CLKOUT_ENABLE (R328). A write of CLK_OUT_CFG. -/
def execClkoutEnable (w : Who) (i : Fin 8) (v : Word) (s : State) : Host.Outcome State Fault Refusal :=
  .next (s.busWrite w (0x1040 + 8 * i) v)

/-- CLKOUT_DISABLE (R328). A write of CLK_OUT_CFG. -/
def execClkoutDisable (w : Who) (i : Fin 8) (v : Word) (s : State) : Host.Outcome State Fault Refusal :=
  .next (s.busWrite w (0x1040 + 8 * i) v)

/-- TARGET (R331). A write of PWR_CTRL. -/
def execPwrTarget (w : Who) (v : Word) (s : State) : Host.Outcome State Fault Refusal :=
  .next (s.busWrite w (0x2000) v)

/-- POWER_TRANSITION_DONE (R331). -/
def execPowerTransitionDone (keyOk : Bool) (s : State) : Host.Outcome State Fault Refusal :=
  .next (s.transitDone keyOk).settle

/-- MAX_CLR (R339). A write of PWR_CTRL. -/
def execMaxClr (w : Who) (v : Word) (s : State) : Host.Outcome State Fault Refusal :=
  .next (s.busWrite w (0x2000) v)

/-- WAKE_TIMER_FIRE (R332). -/
def execWakeTimerFire (s : State) : Host.Outcome State Fault Refusal :=
  .next s.wakeTimer

/-- WAKE (R333). A write of BENCH_PWR. -/
def execBenchWake (w : Who) (b : BenchIx) (v : Word) (s : State) : Host.Outcome State Fault Refusal :=
  .next (s.busWrite w (benchAt b 0x3C0) v)

/-- GATE (R333). A write of BENCH_PWR. -/
def execBenchGate (w : Who) (b : BenchIx) (v : Word) (s : State) : Host.Outcome State Fault Refusal :=
  .next (s.busWrite w (benchAt b 0x3C0) v)

/-- THERMAL_UPDATE (R336). -/
def execThermalUpdate (powers : List Word) (s : State) : Host.Outcome State Fault Refusal :=
  .next (s.thermalUpdate powers).settle

end Sys2Proof.Machine
end

