-- ==== Sys2Proof/Machine/CmdTop.lean ====
section
/-! DEFINITION. Meanings of the commands: faults, resets, inputs, keys and boundary scan. One definition for each row. -/

namespace Sys2Proof.Machine

/-- FAULT_DETECT (R343). -/
def execFaultDetect (src : SrcIx) (s : State) : Host.Outcome State Fault Refusal :=
  .next (s.detect src false).settle

/-- RAIL_FAULT (R344). -/
def execRailFault (src : SrcIx) (s : State) : Host.Outcome State Fault Refusal :=
  .next (s.detect src true).settle

/-- FAULT_SOURCE_DEASSERT (R351). -/
def execFaultSourceDeassert (src : SrcIx) (s : State) : Host.Outcome State Fault Refusal :=
  .next (s.deassert src).settle

/-- QUIET_END (R352). -/
def execQuietEnd (of : QuietOf) (s : State) : Host.Outcome State Fault Refusal :=
  .next <| State.settle <| match of with
    | .site i => s.siteQuietEnd i
    | .chan c => s.chanQuietEnd (c / 8) (c % 8)

/-- REINIT_DONE (R352). -/
def execReinitDone (site : SiteIx) (s : State) : Host.Outcome State Fault Refusal :=
  .next (s.reinitDone site).settle

/-- SITE_RELEASE (R352). -/
def execSiteRelease (site : SiteIx) (s : State) : Host.Outcome State Fault Refusal :=
  .next (s.siteRelease site).settle

/-- FT_EXIT (R354). -/
def execFtExit (s : State) : Host.Outcome State Fault Refusal :=
  .next s.ftExit.settle

/-- CLR_FIRST (R346). A write of FLT_CTRL. -/
def execClrFirst (w : Who) (v : Word) (s : State) : Host.Outcome State Fault Refusal :=
  .next (s.busWrite w (0x3004) v)

/-- FT_RECOVER (R354). A write of FLT_CTRL. -/
def execFtRecover (w : Who) (v : Word) (s : State) : Host.Outcome State Fault Refusal :=
  .next (s.busWrite w (0x3004) v)

/-- REC_CLR (R357). A write of FLT_CTRL. -/
def execRecClr (w : Who) (v : Word) (s : State) : Host.Outcome State Fault Refusal :=
  .next (s.busWrite w (0x3004) v)

/-- SITE_RECOVER (R352). A write of FLT_CTRL. -/
def execSiteRecover (w : Who) (v : Word) (s : State) : Host.Outcome State Fault Refusal :=
  .next (s.busWrite w (0x3004) v)

/-- COLD_RESET (R358). -/
def execColdReset (s : State) : Host.Outcome State Fault Refusal :=
  .next s.coldReset

/-- COLD_STARTUP (R362). -/
def execColdStartup (s : State) : Host.Outcome State Fault Refusal :=
  .next s.coldStartup

/-- FUSE_LOAD_DONE (R362). -/
def execFuseLoadDone (ok : Bool) (s : State) : Host.Outcome State Fault Refusal :=
  .next (s.fuseLoadDone ok)

/-- WARM_RESET (R359). -/
def execWarmReset (s : State) : Host.Outcome State Fault Refusal :=
  .next (s.warmPulse false)

/-- WARM (R358). A write of TOP_RESET. -/
def execWarmWrite (w : Who) (v : Word) (s : State) : Host.Outcome State Fault Refusal :=
  .next (s.busWrite w (0x80) v)

/-- WARM_STARTUP (R366). -/
def execWarmStartup (s : State) : Host.Outcome State Fault Refusal :=
  .next s.warmStartup

/-- PARTITION_RESET (R361). A write of TOP_PART_RESET. -/
def execPartitionReset (w : Who) (v : Word) (s : State) : Host.Outcome State Fault Refusal :=
  .next (s.busWrite w (0x88) v)

/-- BOOT (R365). -/
def execBoot (header : Option (Word × Word)) (s : State) : Host.Outcome State Fault Refusal :=
  .next (s.bootRead header)

/-- INPUT_ARM (R368). -/
def execInputArm (pin : InPin) (high : Bool) (s : State) : Host.Outcome State Fault Refusal :=
  .next (s.inputArm pin high)

/-- CW_SCAN (R370). -/
def execCwScan (codes : List (List (BitVec 18))) (s : State) : Host.Outcome State Fault Refusal :=
  .next (s.cwScan codes)

/-- VAON_EXCURSION (R400). -/
def execVaonExcursion (below : Bool) (s : State) : Host.Outcome State Fault Refusal :=
  .next (s.vaon below).settle

/-- PROGRAM (R375). A write of SEC_CTRL. -/
def execKeyProgram (w : Who) (v : Word) (s : State) : Host.Outcome State Fault Refusal :=
  .next (s.busWrite w (0x9004) v)

/-- PROGRAM_DONE (R375). -/
def execKeyProgramDone (s : State) : Host.Outcome State Fault Refusal :=
  .next s.programDone.settle

/-- REVOKE (R376). A write of SEC_CTRL. -/
def execKeyRevoke (w : Who) (v : Word) (s : State) : Host.Outcome State Fault Refusal :=
  .next (s.busWrite w (0x9004) v)

/-- BYPASS (R383). -/
def execJtagBypass (s : State) : Host.Outcome State Fault Refusal :=
  .next ((s.jtagSelect .bypass).jtagBypass)

/-- IDCODE (R383). -/
def execJtagIdcode (s : State) : Host.Outcome State Fault Refusal :=
  .next ((s.jtagSelect .idcode).jtagId)

/-- SAMPLE_PRELOAD (R383). -/
def execJtagSamplePreload (shift : List Bool) (s : State) : Host.Outcome State Fault Refusal :=
  .next ((s.jtagSelect .sample).jtagShift shift)

/-- EXTEST (R384). -/
def execJtagExtest (shift : List Bool) (s : State) : Host.Outcome State Fault Refusal :=
  .next ((s.jtagSelect .extest).jtagShift shift)

/-- CLAMP (R384). -/
def execJtagClamp (s : State) : Host.Outcome State Fault Refusal :=
  .next ((s.jtagSelect .clamp).jtagBypass)

/-- HIGHZ (R384). -/
def execJtagHighz (s : State) : Host.Outcome State Fault Refusal :=
  .next ((s.jtagSelect .highz).jtagBypass)

/-- EXTEST_PULSE (R383). -/
def execJtagExtestPulse (shift : List Bool) (s : State) : Host.Outcome State Fault Refusal :=
  .next ((s.jtagSelect .extestPulse).jtagShift shift)

/-- EXTEST_TRAIN (R383). -/
def execJtagExtestTrain (shift : List Bool) (s : State) : Host.Outcome State Fault Refusal :=
  .next ((s.jtagSelect .extestTrain).jtagShift shift)

/-- JTAG_TRST (R384). -/
def execJtagTrst (s : State) : Host.Outcome State Fault Refusal :=
  .next (s.jtagSelect .idcode)

/-- RMA_UNLOCK (R385). -/
def execRmaUnlock (sig : Signature) (supplyLost : Bool) (s : State) : Host.Outcome State Fault Refusal :=
  .next (s.rmaUnlock sig.r sig.s supplyLost)

end Sys2Proof.Machine
end

