-- ==== Sys2Proof/Machine/Dispatch.lean ====
section
/-! DEFINITION. The dispatch: one arm for each command. -/

namespace Sys2Proof.Machine

/-- The effect of a command on everything but the queue. -/
def exec (i : Instr) (s : State) : Host.Outcome State Fault Refusal :=
  match i with
  | .registerWrite w addr v full => Sys2Proof.Machine.execRegisterWrite w addr v full s
  | .counterSnapshotRead w addr => Sys2Proof.Machine.execCounterSnapshotRead w addr s
  | .timeSnapshotRead w => Sys2Proof.Machine.execTimeSnapshotRead w s
  | .storeWindowRead w addr => Sys2Proof.Machine.execStoreWindowRead w addr s
  | .epoch => Sys2Proof.Machine.execEpoch s
  | .syncEdge => Sys2Proof.Machine.execSyncEdge s
  | .gangStart g => Sys2Proof.Machine.execGangStart g s
  | .next g => Sys2Proof.Machine.execNext g s
  | .repeatBeat g => Sys2Proof.Machine.execRepeatBeat g s
  | .loopBegin g => Sys2Proof.Machine.execLoopBegin g s
  | .loopEnd g => Sys2Proof.Machine.execLoopEnd g s
  | .jump g => Sys2Proof.Machine.execJump g s
  | .jumpIf g => Sys2Proof.Machine.execJumpIf g s
  | .horizonStallEnd g => Sys2Proof.Machine.execHorizonStallEnd g s
  | .call g => Sys2Proof.Machine.execCall g s
  | .returnOp g => Sys2Proof.Machine.execReturnOp g s
  | .waitTrig g => Sys2Proof.Machine.execWaitTrig g s
  | .waitTrigRelease g => Sys2Proof.Machine.execWaitTrigRelease g s
  | .waitTrigTimeout g => Sys2Proof.Machine.execWaitTrigTimeout g s
  | .waitBeats g => Sys2Proof.Machine.execWaitBeats g s
  | .halt g => Sys2Proof.Machine.execHalt g s
  | .drainComplete g => Sys2Proof.Machine.execDrainComplete g s
  | .segOpen g => Sys2Proof.Machine.execSegOpen g s
  | .gangSync g => Sys2Proof.Machine.execGangSync g s
  | .gangSyncRelease g => Sys2Proof.Machine.execGangSyncRelease g s
  | .pspiSend g => Sys2Proof.Machine.execPspiSend g s
  | .apgLoad g => Sys2Proof.Machine.execApgLoad g s
  | .eventOp g => Sys2Proof.Machine.execEventOp g s
  | .vectorCycleStart g => Sys2Proof.Machine.execVectorCycleStart g s
  | .keepaliveBeat g => Sys2Proof.Machine.execKeepaliveBeat g s
  | .underrunResume g => Sys2Proof.Machine.execUnderrunResume g s
  | .resultReturn g samples => Sys2Proof.Machine.execResultReturn g samples s
  | .logEntryWritten site => Sys2Proof.Machine.execLogEntryWritten site s
  | .ffRearm w b v => Sys2Proof.Machine.execFfRearm w b v s
  | .seqStop w b v => Sys2Proof.Machine.execSeqStop w b v s
  | .doorbell w b v => Sys2Proof.Machine.execDoorbell w b v s
  | .laneRelease w b v => Sys2Proof.Machine.execLaneRelease w b v s
  | .benchPeDataWrite w b v => Sys2Proof.Machine.execBenchPeDataWrite w b v s
  | .benchPeDataRead w b => Sys2Proof.Machine.execBenchPeDataRead w b s
  | .hvModeSafeEnd b => Sys2Proof.Machine.execHvModeSafeEnd b s
  | .dischargePhaseEnd b => Sys2Proof.Machine.execDischargePhaseEnd b s
  | .clampEnter c => Sys2Proof.Machine.execClampEnter c s
  | .adcResult c codes => Sys2Proof.Machine.execAdcResult c codes s
  | .benchTmgSlotWrite w b hi v => Sys2Proof.Machine.execBenchTmgSlotWrite w b hi v s
  | .benchTmgDataWrite w b v => Sys2Proof.Machine.execBenchTmgDataWrite w b v s
  | .benchTmgDataRead w b => Sys2Proof.Machine.execBenchTmgDataRead w b s
  | .apgClutDataAccess w b wr => Sys2Proof.Machine.execApgClutDataAccess w b wr s
  | .apgPreDataAccess w b wr => Sys2Proof.Machine.execApgPreDataAccess w b wr s
  | .benchStrmProdLoWrite w b v => Sys2Proof.Machine.execBenchStrmProdLoWrite w b v s
  | .benchStrmProdHiWrite w b v => Sys2Proof.Machine.execBenchStrmProdHiWrite w b v s
  | .strmRewind w b v => Sys2Proof.Machine.execStrmRewind w b v s
  | .strmEos w b v => Sys2Proof.Machine.execStrmEos w b v s
  | .benchStrmLndDataRead w b => Sys2Proof.Machine.execBenchStrmLndDataRead w b s
  | .raeSolDataRead w e => Sys2Proof.Machine.execRaeSolDataRead w e s
  | .analyse w e v => Sys2Proof.Machine.execAnalyse w e v s
  | .raeClear w e v => Sys2Proof.Machine.execRaeClear w e v s
  | .searchDone e => Sys2Proof.Machine.execSearchDone e s
  | .trigInEdge k rising => Sys2Proof.Machine.execTrigInEdge k rising s
  | .guyTriggerEdge k => Sys2Proof.Machine.execGuyTriggerEdge k s
  | .trigxSwtrig w v => Sys2Proof.Machine.execTrigxSwtrig w v s
  | .trigOutEnd out => Sys2Proof.Machine.execTrigOutEnd out s
  | .acqArm w u v => Sys2Proof.Machine.execAcqArm w u v s
  | .acqStop w u v => Sys2Proof.Machine.execAcqStop w u v s
  | .acqStart u => Sys2Proof.Machine.execAcqStart u s
  | .acqFrame u => Sys2Proof.Machine.execAcqFrame u s
  | .acqHeaderWritten u => Sys2Proof.Machine.execAcqHeaderWritten u s
  | .acqRdLoWrite w u v => Sys2Proof.Machine.execAcqRdLoWrite w u v s
  | .acqRdHiWrite w u v => Sys2Proof.Machine.execAcqRdHiWrite w u v s
  | .refCheck diff => Sys2Proof.Machine.execRefCheck diff s
  | .readbackStart w p v => Sys2Proof.Machine.execReadbackStart w p v s
  | .readbackDone codes => Sys2Proof.Machine.execReadbackDone codes s
  | .metRead addr n => Sys2Proof.Machine.execMetRead addr n s
  | .metWrite addr data crc => Sys2Proof.Machine.execMetWrite addr data crc s
  | .openSession addr crc => Sys2Proof.Machine.execOpenSession addr crc s
  | .closeSession addr data crc => Sys2Proof.Machine.execCloseSession addr data crc s
  | .abortSession addr crc => Sys2Proof.Machine.execAbortSession addr crc s
  | .measureFrame addr data codes crc => Sys2Proof.Machine.execMeasureFrame addr data codes crc s
  | .metReset addr crc => Sys2Proof.Machine.execMetReset addr crc s
  | .calEnLow => Sys2Proof.Machine.execCalEnLow s
  | .vmetLoss => Sys2Proof.Machine.execVmetLoss s
  | .metrologyResetDone => Sys2Proof.Machine.execMetrologyResetDone s
  | .mirrorLoad wrong => Sys2Proof.Machine.execMirrorLoad wrong s
  | .metAnswerTimeout => Sys2Proof.Machine.execMetAnswerTimeout s
  | .monEnable w m v => Sys2Proof.Machine.execMonEnable w m v s
  | .monSettle m volts => Sys2Proof.Machine.execMonSettle m volts s
  | .monTrip m volts => Sys2Proof.Machine.execMonTrip m volts s
  | .monPeriodEnd m => Sys2Proof.Machine.execMonPeriodEnd m s
  | .monBlankEnd m => Sys2Proof.Machine.execMonBlankEnd m s
  | .monRampStart w m v => Sys2Proof.Machine.execMonRampStart w m v s
  | .monRampStep m => Sys2Proof.Machine.execMonRampStep m s
  | .imgLoad w v => Sys2Proof.Machine.execImgLoad w v s
  | .loadComplete copied => Sys2Proof.Machine.execLoadComplete copied s
  | .imgCheck w v => Sys2Proof.Machine.execImgCheck w v s
  | .checkComplete => Sys2Proof.Machine.execCheckComplete s
  | .imgCommit w v => Sys2Proof.Machine.execImgCommit w v s
  | .commitComplete => Sys2Proof.Machine.execCommitComplete s
  | .imgDiscard w v => Sys2Proof.Machine.execImgDiscard w v s
  | .stgPush w p v => Sys2Proof.Machine.execStgPush w p v s
  | .stagingClear w p v => Sys2Proof.Machine.execStagingClear w p v s
  | .applyArm p tag => Sys2Proof.Machine.execApplyArm p tag s
  | .hostSqTailWrite w p v => Sys2Proof.Machine.execHostSqTailWrite w p v s
  | .descriptorFetch p words => Sys2Proof.Machine.execDescriptorFetch p words s
  | .queueEnable w p v => Sys2Proof.Machine.execQueueEnable w p v s
  | .queueDisable w p v => Sys2Proof.Machine.execQueueDisable w p v s
  | .quiesceDone p => Sys2Proof.Machine.execQuiesceDone p s
  | .runStart p tag => Sys2Proof.Machine.execRunStart p tag s
  | .runStop p tag => Sys2Proof.Machine.execRunStop p tag s
  | .streamJob p tag data => Sys2Proof.Machine.execStreamJob p tag data s
  | .fetchJob p tag data => Sys2Proof.Machine.execFetchJob p tag data s
  | .measureJob p tag ok => Sys2Proof.Machine.execMeasureJob p tag ok s
  | .calJob p tag => Sys2Proof.Machine.execCalJob p tag s
  | .calComplete p tag sweeps => Sys2Proof.Machine.execCalComplete p tag sweeps s
  | .applyJob p tag => Sys2Proof.Machine.execApplyJob p tag s
  | .repairReport p tag ok => Sys2Proof.Machine.execRepairReport p tag ok s
  | .scheduleJob p tag => Sys2Proof.Machine.execScheduleJob p tag s
  | .fenceJob p tag => Sys2Proof.Machine.execFenceJob p tag s
  | .jobComplete p tag => Sys2Proof.Machine.execJobComplete p tag s
  | .apertureRead p addr len => Sys2Proof.Machine.execApertureRead p addr len s
  | .apertureWrite p addr data => Sys2Proof.Machine.execApertureWrite p addr data s
  | .portLoss p => Sys2Proof.Machine.execPortLoss p s
  | .linkUp p width speed => Sys2Proof.Machine.execLinkUp p width speed s
  | .mspiRead addr cnt last => Sys2Proof.Machine.execMspiRead addr cnt last s
  | .mspiWrite addr data crc => Sys2Proof.Machine.execMspiWrite addr data crc s
  | .mspiReadInc addr cnt last => Sys2Proof.Machine.execMspiReadInc addr cnt last s
  | .mspiWriteInc addr data crc => Sys2Proof.Machine.execMspiWriteInc addr data crc s
  | .mspiStatusFrame addr cnt last => Sys2Proof.Machine.execMspiStatusFrame addr cnt last s
  | .mspiFrameAbort => Sys2Proof.Machine.execMspiFrameAbort s
  | .mspiOverclock => Sys2Proof.Machine.execMspiOverclock s
  | .spimSend w v => Sys2Proof.Machine.execSpimSend w v s
  | .pspiFrameStart => Sys2Proof.Machine.execPspiFrameStart s
  | .pspiFrameEnd rx => Sys2Proof.Machine.execPspiFrameEnd rx s
  | .announce msg => Sys2Proof.Machine.execAnnounce msg s
  | .announceTimeout => Sys2Proof.Machine.execAnnounceTimeout s
  | .ptpSync id origin corr interval reqAfter => Sys2Proof.Machine.execPtpSync id origin corr interval reqAfter s
  | .followUp id origin corr => Sys2Proof.Machine.execFollowUp id origin corr s
  | .delayResp id t4 corr => Sys2Proof.Machine.execDelayResp id t4 corr s
  | .offsetAgeHoldover => Sys2Proof.Machine.execOffsetAgeHoldover s
  | .stepArm w v => Sys2Proof.Machine.execStepArm w v s
  | .ppsEdge => Sys2Proof.Machine.execPpsEdge s
  | .ppsOut => Sys2Proof.Machine.execPpsOut s
  | .comparatorFire k => Sys2Proof.Machine.execComparatorFire k s
  | .guyAgreement => Sys2Proof.Machine.execGuyAgreement s
  | .guyStrobe => Sys2Proof.Machine.execGuyStrobe s
  | .guyStrobeEdge => Sys2Proof.Machine.execGuyStrobeEdge s
  | .guyAgreeTimeout => Sys2Proof.Machine.execGuyAgreeTimeout s
  | .guyFault => Sys2Proof.Machine.execGuyFault s
  | .refclkLoss => Sys2Proof.Machine.execRefclkLoss s
  | .pllLock => Sys2Proof.Machine.execPllLock s
  | .pllUnlock => Sys2Proof.Machine.execPllUnlock s
  | .dllLock b => Sys2Proof.Machine.execDllLock b s
  | .dllUnlock b => Sys2Proof.Machine.execDllUnlock b s
  | .clkoutEnable w k v => Sys2Proof.Machine.execClkoutEnable w k v s
  | .clkoutDisable w k v => Sys2Proof.Machine.execClkoutDisable w k v s
  | .pwrTarget w v => Sys2Proof.Machine.execPwrTarget w v s
  | .powerTransitionDone keyOk => Sys2Proof.Machine.execPowerTransitionDone keyOk s
  | .maxClr w v => Sys2Proof.Machine.execMaxClr w v s
  | .wakeTimerFire => Sys2Proof.Machine.execWakeTimerFire s
  | .benchWake w b v => Sys2Proof.Machine.execBenchWake w b v s
  | .benchGate w b v => Sys2Proof.Machine.execBenchGate w b v s
  | .thermalUpdate powers => Sys2Proof.Machine.execThermalUpdate powers s
  | .faultDetect src => Sys2Proof.Machine.execFaultDetect src s
  | .railFault src => Sys2Proof.Machine.execRailFault src s
  | .faultSourceDeassert src => Sys2Proof.Machine.execFaultSourceDeassert src s
  | .quietEnd of => Sys2Proof.Machine.execQuietEnd of s
  | .reinitDone site => Sys2Proof.Machine.execReinitDone site s
  | .siteRelease site => Sys2Proof.Machine.execSiteRelease site s
  | .ftExit => Sys2Proof.Machine.execFtExit s
  | .clrFirst w v => Sys2Proof.Machine.execClrFirst w v s
  | .ftRecover w v => Sys2Proof.Machine.execFtRecover w v s
  | .recClr w v => Sys2Proof.Machine.execRecClr w v s
  | .siteRecover w v => Sys2Proof.Machine.execSiteRecover w v s
  | .coldReset => Sys2Proof.Machine.execColdReset s
  | .coldStartup => Sys2Proof.Machine.execColdStartup s
  | .fuseLoadDone ok => Sys2Proof.Machine.execFuseLoadDone ok s
  | .warmReset => Sys2Proof.Machine.execWarmReset s
  | .warmWrite w v => Sys2Proof.Machine.execWarmWrite w v s
  | .warmStartup => Sys2Proof.Machine.execWarmStartup s
  | .partitionReset w v => Sys2Proof.Machine.execPartitionReset w v s
  | .boot header => Sys2Proof.Machine.execBoot header s
  | .inputArm pin high => Sys2Proof.Machine.execInputArm pin high s
  | .cwScan codes => Sys2Proof.Machine.execCwScan codes s
  | .vaonExcursion below => Sys2Proof.Machine.execVaonExcursion below s
  | .keyProgram w v => Sys2Proof.Machine.execKeyProgram w v s
  | .keyProgramDone => Sys2Proof.Machine.execKeyProgramDone s
  | .keyRevoke w v => Sys2Proof.Machine.execKeyRevoke w v s
  | .jtagBypass => Sys2Proof.Machine.execJtagBypass s
  | .jtagIdcode => Sys2Proof.Machine.execJtagIdcode s
  | .jtagSamplePreload shift => Sys2Proof.Machine.execJtagSamplePreload shift s
  | .jtagExtest shift => Sys2Proof.Machine.execJtagExtest shift s
  | .jtagClamp => Sys2Proof.Machine.execJtagClamp s
  | .jtagHighz => Sys2Proof.Machine.execJtagHighz s
  | .jtagExtestPulse shift => Sys2Proof.Machine.execJtagExtestPulse shift s
  | .jtagExtestTrain shift => Sys2Proof.Machine.execJtagExtestTrain shift s
  | .jtagTrst => Sys2Proof.Machine.execJtagTrst s
  | .rmaUnlock sig supplyLost => Sys2Proof.Machine.execRmaUnlock sig supplyLost s
  | .refclkReturn => Sys2Proof.Machine.execRefclkReturn s
  | .metFrameAbort => Sys2Proof.Machine.execMetFrameAbort s
  | .metUndefinedCommand cmd addr data crc => Sys2Proof.Machine.execMetUndefinedCommand cmd addr data crc s
  | .mspiUndefinedOp cmd addr data crc => Sys2Proof.Machine.execMspiUndefinedOp cmd addr data crc s
  | .clampExit c => Sys2Proof.Machine.execClampExit c s
  | .monReturnToNormal m volts => Sys2Proof.Machine.execMonReturnToNormal m volts s
  | .ppsOutEnd => Sys2Proof.Machine.execPpsOutEnd s
  | .guyStrobeEnd => Sys2Proof.Machine.execGuyStrobeEnd s

end Sys2Proof.Machine
end

