-- ==== Sys2Proof/Safety.lean ====
section
/-! DEFINITION. What counts as a safe run of the block, in the terms that claims use. -/

namespace Sys2Proof

open Machine

/-- An outcome goes on: the machine neither faults nor refuses. -/
def goesOn : Host.Outcome State Fault Refusal → Bool
  | .next _ => true
  | .fault _ | .refused _ => false

/-- The state that an outcome goes on to satisfies a property, if it goes on. -/
def AfterNext (P : State → Prop) : Host.Outcome State Fault Refusal → Prop
  | .next t => P t
  | .fault _ | .refused _ => True

/-- An outcome goes on, to a state that satisfies a property. -/
def Goes (o : Host.Outcome State Fault Refusal) (P : State → Prop) : Prop := ∃ t, o = .next t ∧ P t

/-- A write by `w` reaches the register at `a`: the writer's link or port is there (R263, R282), the register is powered
(R330, R395) and implemented (R265), its port is present (R387), the rights allow the writer (R277, R278, R287), and no
commit in progress loads it (R254). -/
def Machine.State.takesWrite (s : State) (w : Who) (a : Nat) : Bool :=
  s.canReach w && s.served a && s.implemented w a && s.allows w (s.right a) && !s.commitBlocks a && !s.absent a

/-- A read by `w` of the register at `a` is served: the reader's link or port is there and the register is powered. -/
def Machine.State.takesRead (s : State) (w : Who) (a : Nat) : Bool := s.canReach w && s.served a

/-- The HBM content of a state is in its one canonical form: rising addresses, no zero byte listed (log 3). -/
def State.hbmOk (s : State) : Prop := Memory.wf s.hbm = true

/-- What the device has written in the host memories is in canonical form. -/
def State.hostOk (s : State) : Prop := ∀ p ∈ s.ports, Memory.wf p.2.hostMem = true

/-- Every byte memory of a state is in canonical form. -/
def State.memOk (s : State) : Prop := State.hbmOk s ∧ State.hostOk s

/-- A property that every step of the machine keeps. -/
def KeptByStep (P : State → Prop) : Prop := ∀ s, P s → AfterNext P (step s)

end Sys2Proof
end

