-- ==== Sys2Proof/Certificates/Slice0/Obligations.lean ====
section
/-! DEFINITION. The statements about the block, one definition each. -/

open Sys2Proof Sys2Proof.Machine

/-- For every command c and every state whose queue is c followed by rest, step answers exactly what exec answers for c on
the state with the queue rest. On an empty queue step goes on to the state after the time that one idle step takes.
The queue and what an idle step does are the model's choice (log 1). -/
def Obligations.StepRunsTheFrontCommand : Prop :=
  (∀ (c : Instr) (rest : List Instr) (s : State), s.pending = c :: rest → step s = exec c { s with pending := rest }) ∧
  (∀ s : State, s.pending = [] → step s = .next s.passes)

/-- For every command and every state exec answers a next state: no command of the opcode table ends in a fault or in a
refusal (log 2). -/
def Obligations.EveryCommandGoesOn : Prop :=
  ∀ (c : Instr) (s : State), goesOn (exec c s) = true

/-- Whatever a command does, the commands waiting behind it stay as they are, in their order (log 1). -/
def Obligations.CommandsLeaveTheQueue : Prop :=
  ∀ (c : Instr) (s t : State), exec c s = .next t → t.pending = s.pending

/-- From every state whose HBM content is in canonical form (rising addresses, no zero byte listed), whatever command is
in front and whatever else the state holds, a step goes on to a state whose HBM content is in canonical form (log 3). -/
def Obligations.HbmFormKeptByStep : Prop :=
  KeptByStep State.hbmOk

/-- The state after reset has its HBM content and what the device has written to host memory in canonical form. -/
def Obligations.ResetMemoryForm : Prop :=
  State.memOk State.reset

/-- What a cold reset leaves, from R359, R362 and the register tables: power state AON with nothing powered beyond the
always-on registers, device tick, epoch and local time 0, the main PLL unlocked, no active image, every port without a
link and its queues disabled, every channel in safe state with its sequencer gated, no fault recorded and FAULT_N not
asserted, and no command waiting. -/
def Obligations.ResetLeavesBlockInAon : Prop :=
  let s := State.reset
  s.pending = [] ∧ s.pwr.pstate = .aon ∧ s.powered = false ∧ s.now = 0 ∧ s.clk.epoch = 0 ∧ s.local = 0 ∧
  s.clk.pllLock = false ∧ s.img.activeValid = false ∧ s.img.stg = .empty ∧ s.gangIxs = [] ∧ s.siteIxs = [] ∧
  (∀ p, (s.port p).linkUp = false ∧ (s.port p).en = false ∧ (s.port p).jobs = []) ∧
  (∀ b, (s.bench b).seq.state = .gated ∧ (s.bench b).awake = false) ∧ (∀ b l, (s.chan b l).inSafe = true) ∧
  s.flt.active = [] ∧ s.flt.seen = [] ∧ s.flt.firstValid = false ∧ s.flt.faultN = false ∧ s.top.causeCold = true

namespace Sys2Proof.Claims

/-- One result that returns with the oldest beat in flight: bench, half and site, the beat in flight, its vector, and what the eight
lanes show. -/
structure Part where
  b : Nat
  h : Nat
  site : Nat
  f : Flight
  v : Vec
  rs : List LaneRes

/-- The number of vectors of the oldest beat in flight of the lead bench. -/
def slots (s : State) (g : Nat) : Nat := ((s.bench (s.lead g)).flight.head?.map (·.beat.vecs.length)).getD 0

/-- What the lanes of bench b show in a vector. -/
def shows (s : State) (samples : List PinSample) (b : Nat) (f : Flight) (v : Vec) : List LaneRes :=
  (s.laneResults f v b samples (List.range 8)).1

/-- The results that return with a gang's oldest beat: slot by slot, and of a slot bench by bench (R178). -/
def parts (s : State) (g : Nat) (samples : List PinSample) : List Part :=
  (List.range (slots s g)).flatMap fun j => (s.gangBenches g).flatMap fun b =>
    match (s.bench b).flight.head? with
    | none => []
    | some f => match f.beat.vecs[j]? with
      | none => []
      | some v => (s.halves b).map fun p => ⟨b, p.1, p.2, f, v, shows s samples b f v⟩

/-- The voltages at every pin of a gang are given for every vector of its oldest beat in flight. -/
def allSeen (s : State) (g : Nat) (samples : List PinSample) : Prop :=
  ∀ b ∈ s.gangBenches g, ∀ f ∈ (s.bench b).flight.head?, ∀ v ∈ f.beat.vecs, ∀ l < 8,
    (seenVolts f v b samples l).isSome = true

/-- The lanes of the part's site that fail, and of them those that a DATA field of the vector maps (R181). -/
def Part.fails (s : State) (x : Part) : List Nat :=
  (laneList (s.site x.site).cfg.lanes).filter fun l => (x.rs.getD l {}).fail
def Part.data (s : State) (x : Part) : List Nat := (x.fails s).filter fun l => fld (x.v.lanes.getD l {}).apgMap 8 4 = 7
/-- Their bit indexes. -/
def Part.ios (s : State) (x : Part) : List Nat := (x.data s).map fun l => fld (x.v.lanes.getD l {}).apgMap 0 5

/-- A mask of the lanes of the part's site. -/
def Part.mask (s : State) (x : Part) (p : LaneRes → Bool) : BitVec 8 := maskOf (laneList (s.site x.site).cfg.lanes) x.rs p

/-- The fail log entry of a part (R177), and its first-fail record (R175). -/
def Part.entry (s : State) (x : Part) : LogEntry :=
  { beat := x.f.beat.num, slot := x.v.slot, bench := x.b, fail := x.mask s (·.fail), masked := x.mask s (·.masked),
    nocmp := x.mask s (·.nocmp), lvlH := x.mask s (·.lvlH), lvlL := x.mask s (·.lvlL), snap := x.v.snap }
def Part.record (s : State) (x : Part) : FirstFail :=
  { valid := true, beat := x.f.beat.num, slot := x.v.slot, fail := x.mask s (·.fail), masked := x.mask s (·.masked),
    nocmp := x.mask s (·.nocmp), lvlH := x.mask s (·.lvlH), lvlL := x.mask s (·.lvlL), snap := x.v.snap }

/-- The parts of one site that its captures take. -/
def captured (ps : List Part) (i : Nat) : List Part := ps.filter fun x => x.site == i && x.f.beat.captEn

/-- The writes that enter a site's queue when nothing is merged: the bitmap updates, then the log entries in the order of beat, slot
and bench (R178, R180, R181; log 115). -/
def writes (s : State) (own : List Part) (i : Nat) : List PendingWrite :=
  let f := (s.site i).fail
  let bm := (own.map fun x => if f.hasBm then failBits f x.v.snap (x.ios s) else []).filter (!·.isEmpty)
  bm.map .bitmap ++ (sortOn LogEntry.rank ((own.filter fun x => x.mask s (·.fail) != 0).map (·.entry s))).map .log

/-- The entry that is open joins the one that comes (R179). -/
def joins (o e : LogEntry) : Bool :=
  o.fresh && decide (o.count < 65535) && o.snap.px == e.snap.px && o.snap.py == e.snap.py && o.snap.pz == e.snap.pz

/-- The state is s', but for the tick since which the guyline GUY[0] has read high with agreement: a check of R317 may now hold or
fail. -/
def UpToAgreement (s' t : State) : Prop := t = { s' with guy := { s'.guy with g0HighSince := t.guy.g0HighSince } }

/-- The gang holds at least one bench, none twice, and no other gang holds one of them (R14). -/
def gangOk (s : State) (g : Nat) : Bool :=
  !(s.gangBenches g).isEmpty && decide (s.gangBenches g).Nodup && (s.gangBenches g).all fun b => s.gangOf b == some g

/-- Every bench of the gang satisfies a test. -/
def allBenches (s : State) (g : Nat) (p : Bench → Bool) : Bool := (s.gangBenches g).all fun b => p (s.bench b)

/-- The gang can issue a beat on the present tick: the main PLL is locked, no FIFO is full, no stop is accepted, no enabled
event is pending, no APPLY is armed (R17, R18, R121, R127, R260). -/
def freeToIssue (s : State) (g : Nat) : Bool :=
  gangOk s g && s.clk.pllLock && !s.fifoFull g && s.issueTick g == s.now && !(s.gang g).stopReq &&
    s.dueEvent g == none && s.img.applies.isEmpty

/-- The gang's microword at address a is w, whose nano-word consumes no stream record in a beat of the gang. -/
def holdsWord (s : State) (g a : Nat) (w : BitVec 48) : Bool :=
  s.microAt g a == w && needs (s.nanoAt g (muNano w)) (s.gang g).cfg.bw == 0

/-- The legal microword w at address a is the next of the issuing gang, and its first beat is due on the present tick. -/
def due (s : State) (g a : Nat) (w : BitVec 48) : Bool :=
  freeToIssue s g && holdsWord s g a w && s.wordCode g a == 0 && !(s.gang g).chosen &&
    allBenches s g fun x => x.seq.state == .issue && x.seq.next == a && x.seq.rem == 0 && x.seq.resume == 0

/-- The gang has issued the microword at a as one more beat of every bench: the counter advances by 1, PC is a, and the beat
with the present number and B vectors joins the FIFO (R17, R18). `f` says more of a bench's sequencer before and after
and of the beat. -/
def Issued (s t : State) (g a : Nat) (f : Bench → Bench → Beat → Prop) : Prop :=
  ∀ b ∈ s.gangBenches g, (t.bench b).seq.pc = a ∧ (t.bench b).seq.beat = ((s.bench b).seq.beat + 1) % 2 ^ 64 ∧
    ∃ x, (t.bench b).fifo = (s.bench b).fifo ++ [x] ∧ x.num = (s.bench (s.lead g)).seq.beat ∧
      x.vecs.length = (s.gang g).cfg.bw ∧ f (s.bench b) (t.bench b) x

/-- The commands of the sixteen opcodes, in the order of their codes (R103). -/
def microCommands (g : GangIx) : List Instr :=
  [.next g, .repeatBeat g, .loopBegin g, .loopEnd g, .jump g, .jumpIf g, .call g, .returnOp g, .waitTrig g, .waitBeats g,
   .halt g, .segOpen g, .gangSync g, .pspiSend g, .apgLoad g, .eventOp g]

end Sys2Proof.Claims

open Sys2Proof.Claims

/-- When a gang's legal microword w at address a is due, its command issues one beat in every bench of the gang: NEXT goes
on to a + 1; REPEAT and WAIT_BEATS leave N - 1 beats to issue and go on to a + 1 after the last; HALT enters DRAIN;
SEG_OPEN moves CONS of every bench with a live stream to the position of its landing; PSPI_SEND puts frame
OPERAND[5:0], or PFRAME when SRC = 1, on the beat; APG_LOAD loads the preset before the beat's first vector is
resolved, as that vector's X, Y and Z show; EVENT puts its 20-bit code on the beat. -/
def Obligations.StraightMicrowordsIssue : Prop :=
  ∀ (s : State) (g : GangIx) (a : Nat) (w : BitVec 48), due s g a w = true →
    (muOp w = 0x0 → Goes (exec (.next g) s) fun t => Issued s t g a fun _ y _ =>
      y.seq.state = .issue ∧ y.seq.next = a + 1 ∧ y.seq.rem = 0) ∧
    (muOp w = 0x1 → Goes (exec (.repeatBeat g) s) fun t => Issued s t g a fun _ y _ =>
      y.seq.state = .issue ∧ y.seq.rem = muArg w ∧ y.seq.next = if muArg w = 0 then a + 1 else a) ∧
    (muOp w = 0x9 → Goes (exec (.waitBeats g) s) fun t => Issued s t g a fun x y _ =>
      y.seq.state = .issue ∧ y.seq.rem = muArg w ∧ (y.seq.next = if muArg w = 0 then a + 1 else a) ∧
      y.apg.regs = x.apg.regs ∧ y.strm.cons = x.strm.cons) ∧
    (muOp w = 0xA → Goes (exec (.halt g) s) fun t => Issued s t g a fun _ y _ => y.seq.state = .drain) ∧
    (muOp w = 0xB → Goes (exec (.segOpen g) s) fun t => Issued s t g a fun x y _ =>
      y.seq.next = a + 1 ∧ (x.strm.live = true →
        y.strm.cons = (tget {} x.strm.cfg.landings (bitsOf (muArg w) 0 6)).pos)) ∧
    (muOp w = 0xD → Goes (exec (.pspiSend g) s) fun t => Issued s t g a fun _ y z => y.seq.next = a + 1 ∧
      z.pspi = some (if (muArg w).testBit 6 then nwPframe (s.nanoAt g (muNano w)) else bitsOf (muArg w) 0 6)) ∧
    (muOp w = 0xE → 0 < (s.gang g).cfg.bw → Goes (exec (.apgLoad g) s) fun t => Issued s t g a fun x y z =>
      y.seq.next = a + 1 ∧ z.vecs.head?.map (fun v => (v.snap.x, v.snap.y, v.snap.z)) =
        some (tget 0 x.apg.presets (16 * argHigh w), tget 0 x.apg.presets (16 * argHigh w + 3),
          tget 0 x.apg.presets (16 * argHigh w + 6))) ∧
    (muOp w = 0xF → Goes (exec (.eventOp g) s) fun t => Issued s t g a fun _ y z =>
      y.seq.next = a + 1 ∧ z.event = some (BitVec.ofNat 20 (muArg w)))

/-- When a gang's legal microword w at address a is due, its command issues one beat in every bench of the gang.
LOOP_BEGIN k loads counter k from the operand, or from the loop-load register when SRC = 1, marks it active and
records a + 1 as its start; LOOP_END k decrements counter k and goes on to the loop's start, or with the result 0
makes the counter inactive and goes on to a + 1; JUMP goes to its target; JUMP_IF, whose results are in and whose
nano-word does not clear the flags, goes to its target if its condition holds and to a + 1 otherwise; CALL pushes a +
1 without a handler mark and goes to its target; RETURN pops the top entry, goes on at its address and leaves handler
mode if the entry carries the mark. -/
def Obligations.BranchingMicrowordsIssue : Prop :=
  ∀ (s : State) (g : GangIx) (a : Nat) (w : BitVec 48), due s g a w = true →
    let k := argLoop w
    (muOp w = 0x2 → Goes (exec (.loopBegin g) s) fun t => Issued s t g a fun x y _ =>
      tget 0 y.seq.lcnt k = wd (s.loopCount g w) ∧ y.seq.lact.getLsbD k = true ∧ tget 0 y.seq.lstart k = a + 1 ∧
      y.seq.next = a + 1 ∧ ∀ j, j ≠ k → tget 0 y.seq.lcnt j = tget 0 x.seq.lcnt j ∧
        y.seq.lact.getLsbD j = x.seq.lact.getLsbD j ∧ tget 0 y.seq.lstart j = tget 0 x.seq.lstart j) ∧
    (muOp w = 0x3 → Goes (exec (.loopEnd g) s) fun t => Issued s t g a fun x y _ =>
      tget 0 y.seq.lcnt k = tget 0 x.seq.lcnt k - 1 ∧
      (if tget 0 x.seq.lcnt k = 1 then y.seq.next = a + 1 ∧ y.seq.lact.getLsbD k = false
       else y.seq.next = tget 0 x.seq.lstart k ∧ y.seq.lact = x.seq.lact) ∧
      ∀ j, j ≠ k → tget 0 y.seq.lcnt j = tget 0 x.seq.lcnt j) ∧
    (muOp w = 0x4 → Goes (exec (.jump g) s) fun t => Issued s t g a fun _ y _ => y.seq.next = argTarget w) ∧
    (muOp w = 0x5 → nwFlagClr (s.nanoAt g (muNano w)) = false → s.horizonOk g = true →
      Goes (exec (.jumpIf g) s) fun t => Issued s t g a fun _ y _ => y.seq.next =
        if s.condition g (s.bench (s.lead g)).seq.beat (argHigh w) then argTarget w else a + 1) ∧
    (muOp w = 0x6 → Goes (exec (.call g) s) fun t => Issued s t g a fun x y _ =>
      y.seq.stack = { ret := a + 1, handler := false, rem := 0 } :: x.seq.stack ∧ y.seq.next = argTarget w) ∧
    (muOp w = 0x7 → Goes (exec (.returnOp g) s) fun t => Issued s t g a fun x y _ =>
      ∀ e r, x.seq.stack = e :: r → y.seq.stack = r ∧ y.seq.next = e.ret ∧ y.seq.resume = e.rem ∧
        y.seq.handler = (x.seq.handler && !e.handler))

/-- When a gang's legal microword w at address a is due: WAIT_TRIG issues its first beat, clears TRIG, counts that beat
towards its timeout OPERAND and waits at a; GANG_SYNC issues its first beat and waits at a for the first epoch after
the present one that M divides, with M = 0 treated as 1. -/
def Obligations.WaitingMicrowordsBegin : Prop :=
  ∀ (s : State) (g : GangIx) (a : Nat) (w : BitVec 48), due s g a w = true →
    (muOp w = 0x8 → Goes (exec (.waitTrig g) s) fun t => Issued s t g a fun _ y _ =>
      y.seq.state = .wait ∧ y.seq.next = a ∧ y.seq.trig = false ∧ y.seq.waited = 1 ∧ y.seq.timeout = muArg w) ∧
    (muOp w = 0xC → Goes (exec (.gangSync g) s) fun t => Issued s t g a fun _ y _ =>
      y.seq.state = .sync ∧ y.seq.next = a ∧ s.clk.epoch < y.seq.syncEpoch ∧ y.seq.syncEpoch % max 1 (muArg w) = 0 ∧
      ∀ e, s.clk.epoch < e → e % max 1 (muArg w) = 0 → y.seq.syncEpoch ≤ e)

/-- For each of the sixteen opcode commands, when a microword of the gang is due: the command goes on to a state that
differs at most in the benches of the gang, in the gang's own run, in the host ports (a low-water or counter-saturated
notice), in the count of free values taken and in the tick since which the guyline GUY[0] has read high with agreement
(a check of R317); every other bench and every other gang is as before, and so is every byte of HBM. -/
def Obligations.IssuedBeatFrame : Prop :=
  ∀ (s : State) (g : GangIx) (a : Nat) (w : BitVec 48), due s g a w = true → ∀ c ∈ microCommands g,
    Goes (exec c s) fun t =>
      t = { s with benches := t.benches, gangs := t.gangs, ports := t.ports, freeCtr := t.freeCtr,
                   guy := { s.guy with g0HighSince := t.guy.g0HighSince } } ∧
      (∀ b, b ∉ s.gangBenches g → t.bench b = s.bench b) ∧ ∀ h : Nat, h ≠ g.val → t.gang h = s.gang h

/-- A WAIT_TRIG whose input has been reached by pulses, the earliest on tick u, is released: the gang goes on at a + 1
from tick u + 1, TRIG and RELEASED are set, WT_SRC holds the sources of tick u, PRIMARY the lowest of them and WT_BEAT
the number of the last hold beat. One whose T beats have issued without a pulse ends with TIMEOUT set, PRIMARY 0xFF
and TRIG as it was. A GANG_SYNC ends on the tick of its target epoch, and the gang goes on at a + 1. -/
def Obligations.WaitsEnd : Prop :=
  ∀ (s : State) (g : GangIx), gangOk s g = true →
    let l := s.lead g
    let q := (s.bench l).seq
    let onward (t : State) : Prop := ∀ b ∈ s.gangBenches g,
      (t.bench b).seq.state = .issue ∧ (t.bench b).seq.next = (s.bench b).seq.next + 1
    (∀ u n r, q.state = .wait → q.wtPulses = (u, n) :: r → u ≤ s.now → q.timeout = 0 →
      Goes (exec (.waitTrigRelease g) s) fun t => onward t ∧ (t.gang g).issueFrom = u + 1 ∧
        let srcs := n :: (r.filter fun x => x.1 = u).map (·.2)
        let q' := (t.bench l).seq
        q'.trig = true ∧ q'.wtReleased = true ∧ q'.wtTimeout = false ∧ q'.wtBeat = q.beat - 1 ∧
        q'.wtPrimary = BitVec.ofNat 8 (srcs.foldl min n) ∧ ∀ i < 192, q'.wtSrc.getLsbD i = decide (i ∈ srcs)) ∧
    (q.state = .wait → q.timeout ≠ 0 → q.timeout ≤ q.waited → q.wtPulses = [] →
      Goes (exec (.waitTrigTimeout g) s) fun t => onward t ∧
        let q' := (t.bench l).seq
        q'.trig = q.trig ∧ q'.wtTimeout = true ∧ q'.wtReleased = false ∧ q'.wtPrimary = 0xFF ∧ q'.wtSrc = 0) ∧
    (q.state = .sync → s.clk.pllLock = true → s.trigx.inflight = [] → s.grid ≤ 256 * q.syncEpoch →
      Goes (exec (.gangSyncRelease g) s) fun t => onward t ∧ t.grid = 256 * q.syncEpoch)

/-- An ARMED gang whose start epoch has not passed issues beat 0 from its entry address on the tick of that epoch, and the
first vector of beat 0 starts 512 ticks later; the gang's JUMP_IF that stalled at the feedback horizon issues, once
the results it waits for have returned, and goes to its target if its condition holds and to a + 1 otherwise. -/
def Obligations.StartsAndStallsIssue : Prop :=
  ∀ (s : State) (g : GangIx) (w : BitVec 48), gangOk s g = true → s.clk.pllLock = true → s.img.applies = [] →
    let q := (s.bench (s.lead g)).seq
    (allBenches s g (fun x => x.seq.state == .armed && x.seq.beat == 0 && x.fifo.isEmpty && x.strm.cfg.fmt == 0) = true →
      (s.gang g).lastIssue = none → s.trigx.inflight = [] → s.grid ≤ 256 * (s.gang g).startEpoch →
      holdsWord s g q.entry w = true → s.wordCode g q.entry = 0 → muOp w = 0 → 0 < (s.gang g).cfg.bw →
      Goes (exec (.gangStart g) s) fun t => t.grid = 256 * (s.gang g).startEpoch ∧ Issued s t g q.entry fun _ y x =>
        y.seq.state = .issue ∧ y.seq.next = q.entry + 1 ∧ x.num = 0 ∧
        x.vecs.head?.map (·.start) = some (5000 * (t.now + 512))) ∧
    (allBenches s g (fun x => x.seq.state == .hstall && x.seq.next == q.next && x.seq.resume == 0) = true →
      s.fifoFull g = false → s.horizonOk g = true → s.issueTick g = s.now → holdsWord s g q.next w = true → muOp w = 5 →
      nwFlagClr (s.nanoAt g (muNano w)) = false →
      Goes (exec (.horizonStallEnd g) s) fun t => Issued s t g q.next fun _ y _ =>
        y.seq.state = .issue ∧ y.seq.next = if s.condition g q.beat (argHigh w) then argTarget w else q.next + 1)

/-- An accepted write of 1 to DOORBELL with STOP 0 sets EVT_EN and HFLAG of the lead bench, whose former value the present
tick's JUMP_IF still sees, and asserts its event input 2, setting MERGED where it is already pending, and changes
nothing else. An accepted STOP of a gang inside a REPEAT is remembered until the boundary; at a boundary the gang
enters DRAIN. A gang in DRAIN whose last vector and last result are done enters STOPPED after a stop and HALTED after
a HALT. -/
def Obligations.RunsStopAndDrain : Prop :=
  ∀ (s : State) (w : Who) (b : BenchIx) (v : Word) (g : GangIx),
    (s.takesWrite w (benchAt b 0x010) = true → bit v 2 = true → bit v 0 = false →
      exec (.doorbell w b v) s = .next (s.modSeq (s.leadOf b) fun q =>
        { q with evtEn := v.extractLsb' 8 8, hflag := bit v 1, hflagTick := some s.now, hflagOld := q.hflagAt s.now,
                 evtPend := q.evtPend ||| 4, evtMerged := if q.evtPend.getLsbD 2 then q.evtMerged ||| 4 else q.evtMerged })) ∧
    (s.takesWrite w (benchAt b 0x010) = true → bit v 0 = true → gangOk s g = true → s.gangOf b = some g.val →
      s.gangState g = .issue → s.fifoFull g = false → allBenches s g (fun x => x.seq.state != .gated) = true →
      Goes (exec (.seqStop w b v) s) fun t => (t.gang g).stopReq = true ∧
        ∀ k ∈ s.gangBenches g, (t.bench k).seq.state = if s.atBoundary g then .drain else (s.bench k).seq.state) ∧
    (gangOk s g = true → allBenches s g (fun x => x.seq.state == .drain && x.fifo.isEmpty && x.flight.isEmpty) = true →
      Goes (exec (.drainComplete g) s) fun t => (t.gang g).stopReq = false ∧ ∀ k ∈ s.gangBenches g,
        (t.bench k).seq.state = if (s.gang g).stopReq then .stopped else .halted)

/-- VECTOR_CYCLE_START takes the oldest queued beat of a gang out of every bench's FIFO not before its first vector's
start and puts it in flight; the guard window starts again where the beat carries a parameter cut. Beat 0 is the start
event of a unit that waits for it, unless its cut has taken that unit to IDLE. A beat with MARK sets the marker of
every bench of the gang, pulses source 8 + b of each and no other source, and starts the ramps that follow one of
them. A beat with PERIOD ends the pattern periods of the monitors at the gang's sites: each latch bit whose comparator
has returned to normal is cleared, but for one set on that very tick. A frame of PSPI_SEND joins the frame queue, or
with the queue full is counted as dropped and leaves the queue as it is. A beat with EVENT writes a record of type 1
with the lead bench, the beat number and the code to the owner's notice queue. RESULT_RETURN takes the oldest beat in
flight out of every bench and makes its number plus one the count of beats whose results have returned. -/
def Obligations.BeatsReachPinsAndReturn : Prop :=
  ∀ (s : State) (g : GangIx), gangOk s g = true →
    (∀ x r, (s.bench (s.lead g)).fifo = x :: r → s.clk.pllLock = true → s.trigx.inflight = [] →
      allBenches s g (fun y => !y.fifo.isEmpty) = true →
      let at0 := (x.vecs.head?.map (·.start)).getD 0
      Goes (exec (.vectorCycleStart g) s) fun t => ceilDiv at0 5000 ≤ t.now ∧
        (∀ b ∈ s.gangBenches g, (t.bench b).fifo = (s.bench b).fifo.tail ∧
          (t.bench b).flight.map (·.beat) = (s.bench b).flight.map (·.beat) ++ (s.bench b).fifo.head?.toList ∧
          ∀ y, (s.bench b).fifo.head? = some y → (t.bench b).tl = if y.items = [] then (s.bench b).tl else at0) ∧
        (x.num = 0 → ∀ u < 32, (∃ b ∈ s.gangBenches g, b / 2 = u) → (s.acq u).state = .waitStart →
          (s.acq u).startSrc = 1 → (s.acq u).startAt = none →
          (t.acq u).state = .idle ∨ (t.acq u).state = .waitStart ∧ (t.acq u).startAt = some t.grid) ∧
        (∀ m, x.mark = some m → (∀ b ∈ s.gangBenches g, (t.bench b).seq.marker = m) ∧
          (∀ p, p ∈ t.trigx.inflight ↔ p.1 = t.now + 4 ∧ ∃ b ∈ s.gangBenches g, p.2.2 = 8 + b ∧
            ∃ q ∈ s.trigx.routes, q.1 = p.2.1 ∧ 8 + b ∈ q.2) ∧
          ∀ k y, tfind s.mons k = some y → (∃ b ∈ s.gangBenches g, y.assign.rampBench = b) →
            (t.mon k).ramping = true ∧ (t.mon k).rampN = 0 ∧ (t.mon k).rampAt = t.grid) ∧
        (x.period = true → ∀ k y i, tfind s.mons k = some y → y.en = true → y.pattern = true → y.assign.site = some i →
          (s.site i).cfg.gang = g.val → (t.mon k).tripHi = (y.tripHi && (y.isHigh || y.hiAt == some t.mono)) ∧
            (t.mon k).tripLo = (y.tripLo && (y.isLow || y.loAt == some t.mono))) ∧
        (∀ f, x.pspi = some f → if s.spim.full = true then t.spim = { s.spim with qdrop := s.spim.qdrop.add 1, qfullSeen := true }
          else t.spim.queue.length = s.spim.queue.length + 1 ∧ ∀ q, q ∈ t.spim.queue ↔
            q ∈ s.spim.queue ∨ q = { frame := f % 64, src := 1, tick := t.now, rank := s.lead g }) ∧
        ∀ c, x.event = some c →
          t.ports = ((s.advanceTo (ceilDiv at0 5000)).noticeTo (s.benchOwner (s.lead g)) 1 (s.lead g) x.num c.toNat).ports) ∧
    (∀ f r samples, (s.bench (s.lead g)).flight = f :: r →
      Goes (exec (.resultReturn g samples) s) fun t => (t.gang g).returned = f.beat.num + 1 ∧
        ∀ b ∈ s.gangBenches g, (t.bench b).flight = (s.bench b).flight.tail)

/-- When a gang's oldest beat returns and the voltages at its pins are given, each pin counts its failing vectors; a
site's fail flag is set by a failing compare of a beat that no clear has passed; the first-fail record of a half takes
its first failing vector, if it held none; the site's write queue takes, with room and without merging or sampling,
the bitmap bits inside the window and then one entry per failing vector in the order of beat, slot and bench (bitmap
first is the model's choice, log 115); with MERGE a failing vector at the coordinates of the open entry joins it, any
other opens its own and closes that one into the queue, and a passing one leaves the entry open; and the intake queue
of an engine in INTAKE that serves the site gains its failing DATA lanes as points, the others setting NONIO. The
oldest write of a site's queue, a log entry that finds room, is stored little-endian in the 32 bytes at the log's base
plus 32 times LOG_WR; every other byte of HBM stays; LOG_WR advances by 1, LOG_FULL is set when that was the last
place, and nothing but the site and the HBM changes. A bitmap update sets its bits in the bytes from the bitmap's base
on and leaves every other bit of HBM. An accepted write of 1 to FF_REARM bit 0 makes the first-fail record of lanes 0
to 3 invalid, and bit 1 that of lanes 4 to 7 where two sites share the bench, with nothing else changed. -/
def Obligations.LogEntriesReachHbm : Prop :=
  (∀ (s : State) (g : GangIx) (samples : List PinSample), gangOk s g = true → (s.bench (s.lead g)).flight ≠ [] →
    allSeen s g samples → (s.raes.map (·.1)).Pairwise (· < ·) →
    let ps := parts s g samples
    Goes (exec (.resultReturn g samples) s) fun t =>
      (∀ b ∈ s.gangBenches g, ∀ f ∈ (s.bench b).flight.head?, ∀ l < 8, (t.chan b l).failCnt =
        (f.beat.vecs.take (slots s g)).foldl (fun c v => if ((shows s samples b f v).getD l {}).fail then c.add 1 else c)
          (s.chan b l).failCnt) ∧
      (∀ i, t.sfail i = (s.sfail i || ps.any fun x => x.site == i && x.mask s (·.fail) != 0 &&
        decide ((s.gang (s.site i).cfg.gang).clrBeat ≤ x.f.beat.num))) ∧
      (∀ b ∈ s.gangBenches g, ∀ h, tget {} (t.bench b).ff h = if (tget {} (s.bench b).ff h).valid then tget {} (s.bench b).ff h
        else match ps.find? fun x => x.b == b && x.h == h && x.f.beat.captEn && x.mask s (·.fail) != 0 with
          | some x => x.record s
          | none => tget {} (s.bench b).ff h) ∧
      (∀ i ∈ s.sitesOfGang g, (s.site i).closing = [] → (s.site i).logFull = false → (s.site i).fail.sample = false →
        let own := captured ps i
        ((s.site i).fail.merge = false → (s.site i).queue.length + (writes s own i).length ≤ 512 →
          (t.site i).queue = (s.site i).queue ++ writes s own i) ∧
        ((s.site i).fail.merge = true → (s.site i).queue.length + 2 * own.length ≤ 512 → ∀ x ∈ own,
          (own.filter fun y => y.b == x.b && y.h == x.h).length = 1 →
          let e := x.entry s
          let cmp := (laneList (s.site i).cfg.lanes).any fun l => (x.v.lanes.getD l {}).act.compareClass
          match tfind (s.bench x.b).openEntry x.h with
          | some o =>
            if e.fail = 0 then tfind (t.bench x.b).openEntry x.h = some { o with fresh := o.fresh && !cmp }
            else if joins o e then tfind (t.bench x.b).openEntry x.h =
              some { o with count := o.count + 1, fail := o.fail ||| e.fail, span := e.beat - o.beat }
            else tfind (t.bench x.b).openEntry x.h = some e ∧ .log o ∈ (t.site i).queue
          | none => tfind (t.bench x.b).openEntry x.h = if e.fail = 0 then none else some e)) ∧
      ∀ k x, tfind s.raes k = some x → x.cfg.assigned = true → x.state = .intake →
        let own := captured ps x.cfg.site
        let new := own.flatMap fun y => (y.ios s).map fun io => s.raePoint k (s.bench y.b).apg.regs y.v.snap io
        (x.at t.now).inq.length + new.length ≤ 4096 → ((t.rae k).at t.now).inq = (x.at t.now).inq ++ new ∧
          (t.rae k).nonio = (x.nonio || own.any fun y => decide ((y.data s).length < (y.fails s).length))) ∧
  (∀ (s : State) (i : SiteIx) (bits : List Nat) (r : List PendingWrite), (s.site i).queue = .bitmap bits :: r →
    State.hbmOk s → Goes (exec (.logEntryWritten i) s) fun t =>
      t = { s with sites := t.sites, hbm := t.hbm } ∧ t.site i = { s.site i with queue := r } ∧
      (∀ j : Nat, j ≠ i.val → t.site j = s.site j) ∧
      ∀ a, ∀ n < 8, (t.hbmAt a).getLsbD n = ((s.hbmAt a).getLsbD n ||
        bits.any fun k => (s.site i).fail.bmBase + k / 8 == a && k % 8 == n)) ∧
  (∀ (s : State) (i : SiteIx) (e : LogEntry) (r : List PendingWrite), (s.site i).queue = .log e :: r →
    (s.site i).logWr < (s.site i).fail.logSize → State.hbmOk s →
    Goes (exec (.logEntryWritten i) s) fun t =>
      let a0 := (s.site i).fail.logBase + 32 * (s.site i).logWr
      t = { s with sites := t.sites, hbm := t.hbm } ∧
      t.site i = { s.site i with queue := r, logWr := (s.site i).logWr + 1,
                                 logFull := decide ((s.site i).fail.logSize = (s.site i).logWr + 1) } ∧
      (∀ j : Nat, j ≠ i.val → t.site j = s.site j) ∧
      (∀ k < 32, t.hbmAt (a0 + k) = (wordBytes e.words).getD k 0) ∧
      ∀ a, a < a0 ∨ a0 + 32 ≤ a → t.hbmAt a = s.hbmAt a) ∧
  ∀ (s : State) (w : Who) (b : BenchIx) (v : Word), s.takesWrite w (benchAt b 0x204) = true →
    Goes (exec (.ffRearm w b v) s) fun t => t = { s with benches := t.benches } ∧
      (∀ k : Nat, k ≠ b.val → t.bench k = s.bench k) ∧
      t.bench b = { s.bench b with ff := (t.bench b).ff } ∧
      let whole := s.siteOf b 0 == s.siteOf b 4
      tget {} (t.bench b).ff 0 = (if bit v 0 || (bit v 1 && whole) then {} else tget {} (s.bench b).ff 0) ∧
      tget {} (t.bench b).ff 1 = if bit v 1 && !whole then {} else tget {} (s.bench b).ff 1

/-- When records of a due one-bench gang's NEXT are missing, not lost, and the bench's sites do not abort, the gang issues
a keep-alive beat: it enters KEEPALIVE at the same address, SHORT is set, BENCH_SEQ_UNDERRUN_BEATS and the beat
counter advance by 1 and CONS stays. Once the records are there the frozen NEXT issues from its address, SHORT clears,
CONS has moved by the records consumed, and the gang goes on at a + 1. -/
def Obligations.UnderRunsHoldTheGang : Prop :=
  ∀ (s : State) (g : GangIx) (b : BenchIx) (a : Nat) (w : BitVec 48), freeToIssue s g = true →
    s.gangBenches g = [b.val] → s.microAt g a = w → muOp w = 0 → (s.gang g).chosen = false → s.wordCode g a = 0 →
    let x := s.bench b
    let k := needs (s.nanoAt g (muNano w)) (s.gang g).cfg.bw
    x.strm.live = true → k ≠ 0 → x.seq.next = a → x.seq.rem = 0 → x.seq.resume = 0 →
    x.seq.urBeats.count.toNat + 1 < cntMax →
    (x.seq.state = .issue → x.strm.availN x.strm.cons s.now k = .short → s.abortPolicy b = false →
      Goes (exec (.keepaliveBeat g) s) fun t => let y := t.bench b
        y.seq.state = .keepalive ∧ y.seq.next = a ∧ y.strm.short = true ∧ y.strm.cons = x.strm.cons ∧
        y.seq.urBeats.count.toNat = x.seq.urBeats.count.toNat + 1 ∧ y.seq.beat = (x.seq.beat + 1) % 2 ^ 64) ∧
    (x.seq.state = .keepalive → x.strm.availN x.strm.cons s.now k = .ok →
      Goes (exec (.underrunResume g) s) fun t => let y := t.bench b
        y.seq.state = .issue ∧ y.seq.pc = a ∧ y.seq.next = a + 1 ∧ y.strm.short = false ∧
        y.strm.cons = x.strm.cons + k * x.strm.recSize ∧ y.seq.beat = (x.seq.beat + 1) % 2 ^ 64)

namespace Sys2Proof.Claims

/-- A read by `w` of the register at `a` returns the register itself: it is served, the reader's tag does not name it (R391)
and no image is being committed (R254). -/
def readsNow (s : State) (w : Who) (a : Nat) : Bool :=
  s.takesRead w a && (s.reader (whoIx w)).tag != some a && s.img.stg != .committing

/-- The word that a reader's last read returned. -/
def lastRead (t : State) (w : Who) : Word := (t.reader (whoIx w)).data

/-- Only bench b has changed; and the same but for the tick since which the start agreement holds. -/
def OnlyBench (s t : State) (b : Nat) : Prop :=
  t = { s with benches := t.benches } ∧ ∀ k, k ≠ b → t.bench k = s.bench k
def OnlyBenchUpTo (s t : State) (b : Nat) : Prop :=
  UpToAgreement { s with benches := t.benches } t ∧ ∀ k, k ≠ b → t.bench k = s.bench k

end Sys2Proof.Claims

/-- Through the parameter window of bench b, at lane l and word offset o: a write that no check of R66 refuses stores the
word with its reserved bits 0 and leaves every other word of every lane of every bench. Of CH_CFG it stores all but
HV_MODE; an HV_MODE other than the one in force, or than the one a change under way ends in, puts the lane in safe
state and starts a change that ends 20 µs later. A write that a check refuses with code c changes no lane and records
c and the offset; a read of a word outside an HV_MODE change returns it. Each moves ADDR on by one where INC is set
and the window's end is not reached. -/
def Obligations.ParameterMemoryTakesLegalWords : Prop :=
  ∀ (s : State) (w : Who) (b : BenchIx),
    let a := benchAt b 0xC04
    let x := (s.bench b).pe
    let l := 4 * x.addr / 0x100
    let o := 4 * x.addr % 0x100
    let onward (y : PeWin) : Prop := y.addr = if x.inc && x.addr != 0x1FF then x.addr + 1 else x.addr
    x.past = false → x.addr < 0x200 →
    (∀ v, s.takesWrite w a = true → s.peCode b l o v = 0 → o ≠ 0x38 →
      Goes (exec (.benchPeDataWrite w b v) s) fun t => onward (t.bench b).pe ∧
        t.lane b l = (s.lane b l).set o (v &&& laneMask l o) ∧
        ∀ k m : Nat, k ≠ b.val ∨ m ≠ l → t.lane k m = s.lane k m) ∧
    (∀ v, s.takesWrite w a = true → s.peCode b l o v = 0 → o = 0x38 →
      let q := (s.lane b l).set 0x38 (v &&& laneMask l 0x38)
      let target := match (s.chan b l).hvChange with
        | some x => x.2.1
        | none => (s.lane b l).hv
      let was := match (s.chan b l).hvChange with
        | some x => x.2.2
        | none => (s.chan b l).inSafe
      Goes (exec (.benchPeDataWrite w b v) s) fun t => onward (t.bench b).pe ∧ t.lane b l = q.withHv (s.lane b l).hv ∧
        (∀ k m : Nat, k ≠ b.val ∨ m ≠ l → t.lane k m = s.lane k m) ∧
        if q.hv = target then (t.chan b l).hvChange = (s.chan b l).hvChange
        else (t.chan b l).hvChange = some (s.now + 16000, q.hv, was) ∧ (t.chan b l).inSafe = true) ∧
    (∀ v, s.takesWrite w a = true → s.peCode b l o v ≠ 0 →
      Goes (exec (.benchPeDataWrite w b v) s) fun t => onward (t.bench b).pe ∧ OnlyBench s t b ∧
        t.bench b = { s.bench b with pe := (t.bench b).pe } ∧ (t.bench b).pe.err = true ∧
        (t.bench b).pe.errCode = s.peCode b l o v ∧ (t.bench b).pe.errAddr = 4 * x.addr) ∧
    (∀ v, readsNow s w a = true → (s.chan b l).hvChange = none → (s.lane b l).get o = some v →
      Goes (exec (.benchPeDataRead w b) s) fun t => onward (t.bench b).pe ∧ lastRead t w = v)

/-- An accepted write of BENCH_PE_RELEASE changes only its bench and, in an acquisition unit, the mark of a record that a
channel of it was in safe state. While the bench is running nothing changes. Otherwise lane l leaves safe state
exactly if its bit of RELEASE is 1 and no cause holds it in safe state, and then its PPMU is connected as PMU says and
its discharge path is open; every other lane stays as it was. -/
def Obligations.LanesLeaveSafeStateOnRelease : Prop :=
  ∀ (s : State) (w : Who) (b : BenchIx) (v : Word), s.takesWrite w (benchAt b 0xC18) = true →
    let Leaves (s t : State) : Prop :=
      t = { s with benches := t.benches, acqs := t.acqs } ∧ (∀ k, k ≠ b.val → t.bench k = s.bench k) ∧
      ∀ u, t.acq u = { s.acq u with rcd := { (s.acq u).rcd with safe := (t.acq u).rcd.safe } } ∧
        ((s.acq u).rcd.safe = true → (t.acq u).rcd.safe = true)
    Goes (exec (.laneRelease w b v) s) fun t => Leaves s t ∧ (s.running b = true → t = s) ∧
      (s.running b = false → ∀ l < 8,
        if bit v (8 + l) && (s.chan b l).inSafe && !s.safeCause b l then
          (t.chan b l).inSafe = false ∧ (t.chan b l).ppmuOn = (s.lane b l).pmu ∧ (t.chan b l).discharge = false ∧
          (t.chan b l).drvOn = false
        else t.chan b l = s.chan b l)

/-- The end of an HV_MODE change puts the new HV_MODE in force on lane 7, not before its tick, and leaves lane 7 in safe
state if it was there before. The end of the discharge phase in PARK opens the discharge path and makes the PPMU force
PARK_V. A PPMU that forces its pin and enters its clamp sets CLAMP and CLAMP_SEEN of its channel, one that leaves it
clears CLAMP alone, and nothing else changes. A converter result, of the samples taken since the converter restarted
where those are fewer than 2^AVG_LOG2, becomes the newest of at most four kept: that four are kept is the model's
choice (log 37). -/
def Obligations.ChannelEventsTakeEffect : Prop :=
  (∀ (s : State) (b : BenchIx) (n : Nat) (hv was : Bool), (s.chan b 7).hvChange = some (n, hv, was) →
    s.clk.pllLock = true → s.trigx.inflight = [] →
    Goes (exec (.hvModeSafeEnd b) s) fun t => n ≤ t.now ∧ (t.lane b 7).hv = hv ∧ (t.chan b 7).hvChange = none ∧
      (was = true → (t.chan b 7).inSafe = (s.chan b 7).inSafe)) ∧
  (∀ (s : State) (b : BenchIx), (s.chan b 7).inSafe = true → (s.chan b 7).discharge = true → (s.lane b 7).park = true →
    Goes (exec (.dischargePhaseEnd b) s) fun t =>
      t.chan b 7 = { s.chan b 7 with discharge := false, ppmuOn := true, parkForce := true }) ∧
  (∀ (s : State) (c : ChanIx), s.forcing (c / 8) (c % 8) = true →
    exec (.clampEnter c) s = .next (s.modChan (c / 8) (c % 8) fun x => { x with clamp := true, clampSeen := true })) ∧
  (∀ (s : State) (c : ChanIx), exec (.clampExit c) s = .next (s.modChan (c / 8) (c % 8) fun x => { x with clamp := false })) ∧
  ∀ (s : State) (c : ChanIx) (codes : List (BitVec 18)), s.powered = true → s.met.running = true →
    let x := s.acting (c / 8) (c % 8)
    codes.length = x.avg →
    Goes (exec (.adcResult c codes) s) fun t => ∃ f, f % (800 * x.resultUs) = 0 ∧
      let n := x.samples ((s.chan (c / 8) (c % 8)).adcRestart.getD 0) f
      (t.chan (c / 8) (c % 8)).adcResults =
        ((f, s.adcResult (c / 8) (c % 8) (codes.take n)) :: (s.chan (c / 8) (c % 8)).adcResults).take 4

/-- A write of BENCH_TMG_SLOT_LO or _HI that no check refuses replaces that half of the slot map and nothing else; one
refused with code c records c and the register's offset and nothing else. A write of BENCH_TMG_DATA that no check
refuses stores the library word, reserved bits 0, in the bench, or in every bench of its gang where it is a PERIOD; a
refused one stores nothing and records its code; a read returns the library word. The window's ADDR moves on where INC
is set. -/
def Obligations.TimingSubBlockAccesses : Prop :=
  ∀ (s : State) (w : Who) (b : BenchIx) (v : Word),
    let x := (s.bench b).tmg
    let o := 4 * x.addr
    let onward (y : Tmg) : Prop := y.addr = if x.inc && x.addr != 0x1FFF then x.addr + 1 else x.addr
    (∀ hi : Bool, s.takesWrite w (benchAt b (if hi then 0x804 else 0x800)) = true →
      Goes (exec (.benchTmgSlotWrite w b hi v) s) (UpToAgreement (s.modTmg b fun t =>
        if s.slotCode b hi v = 0 then
          (if hi then { t with slotHi := v &&& 0x3F3F3F3F, mappedHi := true }
           else { t with slotLo := v &&& 0x3F3F3F3F, mappedLo := true })
        else { t with err := true, errCode := s.slotCode b hi v, errAddr := if hi then 0x804 else 0x800 }))) ∧
    (x.past = false → x.addr < 0x2000 →
      (s.takesWrite w (benchAt b 0x814) = true → s.libCode b o v = 0 → Goes (exec (.benchTmgDataWrite w b v) s) fun t =>
        UpToAgreement { s with benches := t.benches } t ∧ onward (t.bench b).tmg ∧
        (∀ k ∈ s.libBenches b o, tget 0 (t.bench k).tmg.lib o = v &&& libMask o) ∧
        (∀ k i, k ∉ s.libBenches b o ∨ i ≠ o → tget 0 (t.bench k).tmg.lib i = tget 0 (s.bench k).tmg.lib i)) ∧
      (s.takesWrite w (benchAt b 0x814) = true → s.libCode b o v ≠ 0 → Goes (exec (.benchTmgDataWrite w b v) s) fun t =>
        OnlyBenchUpTo s t b ∧ onward (t.bench b).tmg ∧ (t.bench b).tmg.lib = x.lib ∧ (t.bench b).tmg.err = true ∧
        (t.bench b).tmg.errCode = s.libCode b o v ∧ (t.bench b).tmg.errAddr = o) ∧
      (readsNow s w (benchAt b 0x814) = true → libWord o = true → Goes (exec (.benchTmgDataRead w b) s) fun t =>
        onward (t.bench b).tmg ∧ lastRead t w = tget 0 x.lib o))

/-- With its window not past its end and the bench not running: a write of APG_CLUT_DATA below 0x1000 replaces the
addressed entry of the column table in every bench that shares APG state with b, and a read returns the entry, the
identity where none was written; a write of APG_PRE_DATA to words 0 to 9 of a preset that fits its register's width
replaces that word in the same benches, and a read returns it. Entries of other benches stay. -/
def Obligations.PatternTablesAreReplicated : Prop :=
  ∀ (s : State) (w : Who) (b : BenchIx) (v : Word),
    let x := (s.bench b).apg
    let shared := s.apgBenches b
    (s.running b = false → x.clutPast = false → x.clutAddr < 0x1000 →
      (s.takesWrite w (benchAt b 0x464) = true → v.toNat ≤ 0xFFF →
        Goes (exec (.apgClutDataAccess w b (some v)) s) fun t => t = { s with benches := t.benches } ∧
          (∀ k ∈ shared, clutAt (t.bench k).apg.clut x.clutAddr = v.toNat) ∧
          ∀ k i, k ∉ shared ∨ i ≠ x.clutAddr → clutAt (t.bench k).apg.clut i = clutAt (s.bench k).apg.clut i) ∧
      (readsNow s w (benchAt b 0x464) = true → Goes (exec (.apgClutDataAccess w b none) s) fun t =>
        lastRead t w = wd (clutAt x.clut x.clutAddr))) ∧
    (s.running b = false → x.prePast = false → x.preAddr < 0x100 → x.preAddr % 16 < 10 →
      (s.takesWrite w (benchAt b 0x46C) = true → v.toNat < 2 ^ apgWidth.getD (x.preAddr % 16) 32 →
        Goes (exec (.apgPreDataAccess w b (some v)) s) fun t => t = { s with benches := t.benches } ∧
          (∀ k ∈ shared, tget 0 (t.bench k).apg.presets x.preAddr = v) ∧
          ∀ k i, k ∉ shared ∨ i ≠ x.preAddr → tget 0 (t.bench k).apg.presets i = tget 0 (s.bench k).apg.presets i) ∧
      (readsNow s w (benchAt b 0x46C) = true → Goes (exec (.apgPreDataAccess w b none) s) fun t =>
        lastRead t w = tget 0 x.presets x.preAddr))

/-- A write of PROD_LO is held for its writer and nothing else. A write of PROD_HI uses up the held half: PROD takes the
64-bit value if the stream is host-fed and the value lies from PROD to LIMIT and on a record, and otherwise keeps its
value with PROD_REFUSED set. REWIND of a host-fed bench that is not running sets PROD and CONS to 0, unpins every
landing, clears EOS and drops every held half; of any other it sets PROD_REFUSED. EOS sets EOS and moves nothing. A
read of a defined landing's first word returns the low word of its position. -/
def Obligations.StreamRegistersMoveTheStream : Prop :=
  ∀ (s : State) (w : Who) (b : BenchIx) (v : Word),
    let x := (s.bench b).strm
    (s.takesWrite w (benchAt b 0xE18) = true → exec (.benchStrmProdLoWrite w b v) s =
      .next (s.modReader (whoIx w) fun h => { h with prodLo := tput h.prodLo b v })) ∧
    (∀ l, s.takesWrite w (benchAt b 0xE1C) = true → tfind (s.reader (whoIx w)).prodLo b = some l →
      Goes (exec (.benchStrmProdHiWrite w b v) s) fun t =>
        let p := (join64 v l).toNat
        tfind (t.reader (whoIx w)).prodLo b = none ∧ (t.bench b).strm.cons = x.cons ∧
        if x.cfg.hostFed = true ∧ x.cfg.fmt ≠ 0 ∧ x.prod ≤ p ∧ p ≤ x.limit ∧ p % max 1 x.recSize = 0 then
          (t.bench b).strm.prod = p ∧ (t.bench b).strm.prodRefused = x.prodRefused
        else (t.bench b).strm.prod = x.prod ∧ (t.bench b).strm.prodRefused = true) ∧
    (s.takesWrite w (benchAt b 0xE04) = true → bit v 1 = true → bit v 0 = false →
      Goes (exec (.strmRewind w b v) s) fun t => let y := (t.bench b).strm
        if x.cfg.hostFed = true ∧ x.cfg.fmt ≠ 0 ∧ s.running b = false then
          y.prod = 0 ∧ y.cons = 0 ∧ y.pinned = [] ∧ y.eos = false ∧ y.prodRefused = x.prodRefused ∧
          ∀ i < 5, tfind (t.reader i).prodLo b = none
        else y.prodRefused = true ∧ y.prod = x.prod ∧ y.cons = x.cons ∧ y.eos = x.eos) ∧
    (s.takesWrite w (benchAt b 0xE04) = true → bit v 0 = true → bit v 1 = false →
      Goes (exec (.strmEos w b v) s) fun t => let y := (t.bench b).strm
        y.eos = true ∧ y.prod = x.prod ∧ y.cons = x.cons) ∧
    (∀ l, readsNow s w (benchAt b 0xE54) = true → x.lndAddr < 0x100 → x.lndAddr % 4 = 0 →
      tfind x.cfg.landings (x.lndAddr / 4) = some l →
      Goes (exec (.benchStrmLndDataRead w b) s) fun t => lastRead t w = wordOf l.pos 0 ∧
        (t.bench b).strm.lndAddr = if x.lndInc then x.lndAddr + 1 else x.lndAddr)

/-- An accepted write with ANALYSE alone starts the search of a PAUSED engine and sets REFUSED in every other state; with
CLEAR alone it empties the intake and enters IDLE, but in INTAKE and SEARCH sets REFUSED; nothing but the engine
changes. The end of a search enters DONE with a valid solution memory and every region searched. A read of
RAE_SOL_DATA returns the addressed word of the solution memory and, with INC, moves on by one up to the window's end. -/
def Obligations.RepairEngineCommands : Prop :=
  ∀ (s : State) (w : Who) (e : EngIx) (v : Word),
    let x := s.rae e
    (s.takesWrite w (0x20000 + 0x400 * e + 0x10) = true → bit v 0 = true → bit v 1 = false →
      exec (.analyse w e v) s = .next (s.modRae e fun y =>
        if y.state = .paused then { y with state := .search, trigTick := s.now, analysed := some s.now }
        else { y with refused := true })) ∧
    (s.takesWrite w (0x20000 + 0x400 * e + 0x10) = true → bit v 1 = true → bit v 0 = false →
      exec (.raeClear w e v) s = .next (s.modRae e fun y =>
        if y.state = .search ∨ y.state = .intake then { y with refused := true }
        else { y with state := .idle, regions := [], inq := [], solValid := false, result := 0 })) ∧
    (x.state = .search → Goes (exec (.searchDone e) s) fun t => (t.rae e).state = .done ∧ (t.rae e).solValid = true ∧
      (t.rae e).regions = x.regions.map (fun r => (r.1, r.2.search x.cfg.sr x.cfg.sc x.cfg.nb)) ∧
      (t.rae e).nodes = ((t.rae e).regions.map fun r => r.2.nodes).sum ∧
      ∀ k : Nat, k ≠ e.val → t.rae k = s.rae k) ∧
    (readsNow s w (0x20000 + 0x400 * e + 0x44) = true → Goes (exec (.raeSolDataRead w e) s) fun t =>
      lastRead t w = x.solution x.solAddr ∧
      (t.rae e).solAddr = if x.solInc = true ∧ x.solAddr < 33792 then x.solAddr + 1 else x.solAddr)

/-- When a search ends and a region whose fails were stored is reported with the outcome repairable, the rows it names are
no more than the spare rows, the columns no more than the spare columns, and every stored fail point lies in a named
row or in a named column of its IO group; whatever the outcome, the search visited no more nodes than the budget. -/
def Obligations.RepairSolutionsAreSound : Prop :=
  ∀ (s : State) (e : EngIx), (s.rae e).state = .search →
    Goes (exec (.searchDone e) s) fun t => ∀ i x, (i, x) ∈ (s.rae e).regions → x.ended = none →
      ∃ y, (i, y) ∈ (t.rae e).regions ∧ y.nodes ≤ (s.rae e).cfg.nb ∧
        (y.outcome = 1 → y.rows.length ≤ (s.rae e).cfg.sr ∧ y.cols.length ≤ (s.rae e).cfg.sc ∧
          ∀ p ∈ x.points, p.row ∈ y.rows ∨ (p.io, p.col) ∈ y.cols)

namespace Sys2Proof.Claims

/-- Source src pulses d ticks from now: it is on its way to exactly the destinations that select it, to arrive 4 ticks later, where
each counts it if it is enabled then, and nothing else in flight changes (R32, R193, R194). -/
def Pulsed (s t : State) (d src : Nat) : Prop :=
  ∀ p, p ∈ t.trigx.inflight ↔ p ∈ s.trigx.inflight ∨ (p.1 = s.now + d + 4 ∧ p.2.2 = src ∧ ∃ r ∈ s.trigx.routes, r.1 = p.2.1 ∧ src ∈ r.2)

/-- The clock can move without a pulse arriving on the way. -/
def quietClock (s : State) : Bool := s.clk.pllLock && s.trigx.inflight.isEmpty

end Sys2Proof.Claims

/-- An edge of an armed trigger input changes the input's level, and if the input's edge selection takes it and the main
PLL is locked, source i pulses after the 2 ticks of input synchronisation; a level that has not lasted 2 ticks is not
seen: the edge that ends it pulses nothing and takes back the pulse of the edge that began it. A falling edge of an
armed GUY[2 + i] pulses source 4 + i, and an accepted write of 1 to TRIGX_SWTRIG the writer's source 184 + p, over
MSPI the administrator port's. A pulse is on its way to every destination that selects its source and to no other, for
4 ticks. The active time of an output ends not before its tick and leaves the output inactive. -/
def Obligations.TriggerSourcesPulse : Prop :=
  (∀ (s : State) (i : Fin 4) (r : Bool), s.top.inArmed.getLsbD i = true → s.top.trigLevel.getLsbD i = !r →
    Goes (exec (.trigInEdge i r) s) fun t => t = { s with top := t.top, trigx := t.trigx } ∧
      (∀ j < 4, t.top.trigLevel.getLsbD j = if j = i.val then r else s.top.trigLevel.getLsbD j) ∧
      let x : TrigIn := tget {} s.trigx.ins i
      ((∀ e, x.edgeAt = some e → e + 2 ≤ s.now) →
        if s.clk.pllLock = true ∧ s.trigx.selects i r = true then Pulsed s t 2 i
        else t.trigx.inflight = s.trigx.inflight) ∧
      ∀ e, x.edgeAt = some e → s.now < e + 2 → x.stable = r →
        ∀ p, p ∈ t.trigx.inflight ↔ p ∈ s.trigx.inflight ∧ ¬(p.1 = e + 6 ∧ p.2.2 = i.val)) ∧
  (∀ (s : State) (i : Fin 4), s.clk.pllLock = true → s.guyArmed (2 + i) = true →
    Goes (exec (.guyTriggerEdge i) s) fun t =>
      t = { s with trigx := t.trigx, guy := { s.guy with level := t.guy.level } } ∧ Pulsed s t 2 (4 + i) ∧
      (s.pulls (2 + i) = false → t.guy.level.getLsbD (2 + i) = false)) ∧
  (∀ (s : State) (w : Who) (v : Word), s.takesWrite w 0xD800 = true → bit v 0 = true →
    Goes (exec (.trigxSwtrig w v) s) fun t => t = { s with trigx := t.trigx } ∧ Pulsed s t 1 (184 + match w with
      | .port p => p.val
      | .mspi => s.top.adminPort)) ∧
  ∀ (s : State) (o : Fin 8), (tget {} s.trigx.outs o : TrigOut).active = true → quietClock s = true →
    Goes (exec (.trigOutEnd o) s) fun t => (tget {} s.trigx.outs o : TrigOut).endTick ≤ t.now ∧
      (tget {} t.trigx.outs o : TrigOut).active = false ∧
      ∀ k : Nat, k ≠ o.val → (tget {} t.trigx.outs k : TrigOut) = tget {} s.trigx.outs k

/-- An accepted write with ARM alone that no check refuses starts the unit: PRE, or WAIT_START with a start source, and
WR, RD and the record number 0; one that a check refuses sets REFUSED and its code and nothing else. STOP alone ends a
record in progress with END STOPPED, one that has no frame yet with the dead time before it, and an unstarted or held
unit at once. A start event takes a waiting unit to PRE from that event on. ACQ_RD_LO is held for its writer;
ACQ_RD_HI uses up the held half and, where the 64-bit value lies from RD to WR, sets RD and releases a HELD unit that
it moves, and otherwise is refused with code 7. That ARM zeroes WR, RD and the record number is the model's reading
(log 31). -/
def Obligations.AcquisitionUnitsArmAndStop : Prop :=
  ∀ (s : State) (w : Who) (u : UnitIx) (v : Word),
    let x := s.acq u
    let a := 0x10000 + 0x800 * u
    (s.takesWrite w (a + 0x30) = true → bit v 0 = true → bit v 1 = false →
      Goes (exec (.acqArm w u v) s) fun t => (∀ k : Nat, k ≠ u.val → t.acq k = s.acq k) ∧
        if s.armCode u = 0 then
          (t.acq u).state = (if x.startSrc = 0 then .pre else .waitStart) ∧ (t.acq u).wr = 0 ∧ (t.acq u).rd = 0 ∧
          (t.acq u).recno = 0 ∧ (t.acq u).refused = x.refused ∧ t.hbm = s.hbm
        else t = s.modAcq u fun y => { y with refused := true, errCode := s.armCode u }) ∧
    (s.takesWrite w (a + 0x30) = true → bit v 1 = true → bit v 0 = false →
      exec (.acqStop w u v) s = .next (s.modAcq u fun y =>
        if y.state = .pre ∨ y.state = .post then
          { y with state := .final, finalIdle := true, deadFrames := 0, deadNs := 0, lost := {}, firstLost := 0,
                   rcd := { (if y.rcd.first = none then y.withDead else y.rcd) with endCode := 1, acc := [] } }
        else if y.state = .waitStart ∨ y.state = .held then { y with state := .idle } else y)) ∧
    (∀ n, x.state = .waitStart → x.startAt = some n →
      exec (.acqStart u) s = .next (s.modAcq u fun y => { y with state := .pre, armAt := n, startAt := none })) ∧
    (s.takesWrite w (a + 0x58) = true → exec (.acqRdLoWrite w u v) s =
      .next (s.modReader (whoIx w) fun h => { h with rdLo := tput h.rdLo u v })) ∧
    ∀ l, s.takesWrite w (a + 0x5C) = true → tfind (s.reader (whoIx w)).rdLo u = some l →
      Goes (exec (.acqRdHiWrite w u v) s) fun t => let n := (join64 v l).toNat
        tfind (t.reader (whoIx w)).rdLo u = none ∧
        if x.rd ≤ n ∧ n ≤ x.wr then (t.acq u).rd = n ∧
          (t.acq u).state = if x.state = .held ∧ x.rd < n then .pre else x.state
        else t.acq u = { x with refused := true, errCode := 7 }

/-- A frame of a unit that is recording, whose used converters have not restarted, arrives 1,280 ticks after its grid
point: it becomes the last frame, the record counts one frame more, and one interval more where that completes K
frames, but for the trigger's own interval in a record with POST = 0, which is not written. A frame that completes an
interval, its results having arrived, stores the interval's entry, the selected channels' words in order, at the
interval's number modulo the positions of the data area, unless the write buffer has no room for it, as it has when
empty; no byte of HBM outside the data area of the record's slot changes. The header of a finished record, the words
of R210, then the seal and its tag (R225), is stored from the start of its slot in the first 512 bytes, and no other
byte changes; WR and the record number advance by 1; the unit goes to IDLE after a stop, to DONE after its last
record, on to the next record while a slot is free, and otherwise to HELD with HELD seen. -/
def Obligations.AcquisitionFramesFillTheRecord : Prop :=
  ∀ (s : State) (u : UnitIx),
    let x := s.acq u
    let f := s.nextFrame u
    let a0 := x.slotAddr x.recno
    let got (j : Nat) : Option Word := ((s.unitChan u j).adcResults.find? fun r => r.1 = f).map (·.2)
    let pos := x.rcd.intervals % x.positions
    let entry := wordBytes (x.sel.flatMap fun j => entryWords x.k x.mean ((got j).getD 0 :: tget [] x.rcd.acc j))
    let header := wordBytes (x.headerWords ++ s.sealWords u ++ s.recordTag u x.headerWords)
    (quietClock s = true → x.state = .pre ∨ x.state = .post → x.startAt = none → x.armAt ≤ f → s.grid ≤ f + 1280 →
      x.positions ≠ 0 → (∀ j ∈ x.used, (s.unitChan u j).adcRestart = none) →
      Goes (exec (.acqFrame u) s) fun t => t.grid = f + 1280 ∧ (t.acq u).lastFrame = some f ∧
        (t.acq u).rcd.frames = x.rcd.frames + 1 ∧
        (t.acq u).rcd.intervals = x.rcd.intervals + (if (x.rcd.frames + 1) % x.k = 0 ∧
          ¬((t.acq u).rcd.trigInterval.isSome ∧ x.post = 0) then 1 else 0) ∧
        (State.hbmOk s → (t.acq u).rcd.intervals = x.rcd.intervals + 1 → (∀ j ∈ x.used, (got j).isSome = true) →
          x.buf = 0 ∨ tget false (t.acq u).rcd.written pos = true →
          ∀ i < entry.length, t.hbmAt (a0 + 0x200 + pos * x.entryBytes + i) = entry.getD i 0) ∧
        ∀ a, a < a0 + 0x200 ∨ a0 + 0x200 + x.positions * x.entryBytes ≤ a → t.hbmAt a = s.hbmAt a) ∧
    (x.state = .final → Goes (exec (.acqHeaderWritten u) s) fun t => let y := t.acq u
      y.wr = (x.wr + 1) % 2 ^ 64 ∧ y.recno = x.recno + 1 ∧ y.rd = x.rd ∧
      (y.state = if x.finalIdle then .idle else if x.nrec ≠ 0 ∧ x.recno + 1 = x.nrec.toNat then .done
        else if y.wr - x.rd < x.cfg.nslot then .pre else .held) ∧
      (y.state = .held → y.heldSeen = true) ∧
      (State.hbmOk s → ∀ i < header.length, t.hbmAt (a0 + i) = header.getD i 0) ∧
      ∀ a, a < a0 ∨ a0 + 0x200 ≤ a → t.hbmAt a = s.hbmAt a)

/-- Enabling a disabled monitor with a legal MON_CFG makes it unsettled with a new period, and a refused write is recorded
with its code and changes no monitor. A settled, unblanked, enabled monitor whose input trips it takes the
comparators' new levels, latches the trip bit with its tick, and pulses source 104 + m; where its REACT asks, fault
source 1,216 + m is raised besides, seen at once or, with the core clock stopped, kept to be sampled once that runs
(log 73), and event input 0 of its site's gang is asserted; a level that trips nothing changes CODE and the
comparators alone. An unsettled one settles to INSIDE once its input is inside by HYST. The end of a TIMER period
clears the trip bits whose comparators are normal, but for a bit set on that very tick, and starts the next one; the
end of blanking comes not before its tick. -/
def Obligations.MonitorsJudgeTheirInput : Prop :=
  ∀ (s : State) (w : Who) (m : MonIx) (v : Word),
    let x := s.mon m
    let lv := s.monLevel m (volt v)
    let tr := x.trips lv.1 lv.2
    (s.takesWrite w (0xB000 + 0x20 * m) = true → bit v 31 = true → x.en = false → exec (.monEnable w m v) s =
      .next (if x.cfgCode v = 0 then s.modMon m fun y => { y with
          cfg := v &&& 0x9FC00000, settled := false, code := .unsettled, periodEnd := s.now + 800 * x.period.toNat,
          ramping := false, rampN := 0, blankEnd := none }
        else { s with monErr := true, monErrCode := x.cfgCode v, monErrAddr := 0x20 * m })) ∧
    (x.en = true → x.settled = false → s.blanked m = false → f32Finite v = true →
      (∀ r, (s.monRefs m).1 = some r → volt v + x.hyst ≤ r) → (∀ r, (s.monRefs m).2 = some r → r + x.hyst ≤ volt v) →
      exec (.monSettle m v) s = .next (s.modMon m fun y => { y with
        settled := true, isHigh := false, isLow := false, code := .inside })) ∧
    (s.monLive m = true → f32Finite v = true → tr.1 = true ∨ tr.2 = true →
      Goes (exec (.monTrip m v) s) fun t => Pulsed s t 0 (104 + m) ∧ t.mon m = { x with
        isHigh := lv.1, isLow := lv.2, code := if lv.1 then .high else if lv.2 then .low else .inside,
        tripHi := x.tripHi || tr.1, tripLo := x.tripLo || tr.2, hiAt := if tr.1 then some s.mono else x.hiAt,
        loAt := if tr.2 then some s.mono else x.loAt } ∧
        (x.assign.react.getLsbD 2 = true → tfind s.flt.active (1216 + m) = none →
          if s.coreOff = false then tget false t.flt.seen (1216 + m) = true else (tfind t.flt.unsampled (1216 + m)).isSome = true) ∧
        ∀ i, x.assign.react.getLsbD 1 = true → x.assign.site = some i → x.assign.react.getLsbD 2 = false →
          (t.bench (s.leadOf (s.lead (s.site i).cfg.gang))).seq.evtPend.getLsbD 0 = true) ∧
    (s.monLive m = true → f32Finite v = true → tr = (false, false) → exec (.monReturnToNormal m v) s =
      .next (s.modMon m fun y => { y with
        isHigh := lv.1, isLow := lv.2, code := if lv.1 then .high else if lv.2 then .low else .inside })) ∧
    (x.en = true → x.pattern = false → Goes (exec (.monPeriodEnd m) s) fun t => t.mon m = { x with
      tripHi := x.tripHi && (x.isHigh || x.hiAt == some t.mono), tripLo := x.tripLo && (x.isLow || x.loAt == some t.mono),
      periodEnd := x.periodEnd + 800 * x.period.toNat } ∧ (quietClock s = true → x.periodEnd ≤ t.now)) ∧
    ∀ n, x.blankEnd = some n → Goes (exec (.monBlankEnd m) s) fun t => t.mon m = { x with blankEnd := none } ∧
      (quietClock s = true → n ≤ t.now)

/-- An accepted write of MON_RAMP_CTRL with START sets SLOPE and starts the ramp from RAMP_START when the slope leads from
RAMP_START towards RAMP_END, and blanks an enabled monitor for 2 us; otherwise it is refused with code 3 at the
register's offset and changes no monitor; that equal RAMP_START and RAMP_END are refused is the model's choice (log
26). A step of a running ramp comes on the next sample grid point and counts one step more. -/
def Obligations.MonitorRampsStepOnTheGrid : Prop :=
  ∀ (s : State) (w : Who) (m : MonIx) (v : Word),
    let x := s.mon m
    let dir := (f32Num x.rampEnd - f32Num x.rampStart) * signed 16 v.toNat
    (s.takesWrite w (0xB01C + 0x20 * m) = true → bit v 31 = true →
      Goes (exec (.monRampStart w m v) s) fun t =>
        if 0 < dir then (t.mon m).slope = v.extractLsb' 0 16 ∧ (t.mon m).ramping = true ∧ (t.mon m).rampN = 0 ∧
          (t.mon m).rampAt = s.grid ∧ (t.mon m).blankEnd = (if x.en then some (s.now + 1600) else x.blankEnd) ∧
          t = { s with mons := t.mons } ∧ ∀ k : Nat, k ≠ m.val → t.mon k = s.mon k
        else t = { s with monErr := true, monErrCode := 3, monErrAddr := 0x20 * m + 0x1C }) ∧
    (x.ramping = true → quietClock s = true → s.grid ≤ gridAfter 1 x.rampAt →
      Goes (exec (.monRampStep m) s) fun t => t.grid = gridAfter 1 x.rampAt ∧ (t.mon m).rampN = x.rampN + 1 ∧
        (t.mon m).rampAt = gridAfter 1 x.rampAt)

namespace Sys2Proof.Claims

/-- A frame of the MET port is whole: the die runs and the host's CRC is right (R222). -/
def metWhole (s : State) (cmd : Nat) (addr : BitVec 24) (data : List Word) (crc : Byte) : Bool :=
  s.met.running && crc8 (hostBytes cmd addr data) == crc

/-- Only the metrology part has changed, and the count of free values taken. -/
def OnlyMet (s t : State) : Prop := t = { s with met := t.met, freeCtr := t.freeCtr }

/-- The last answer is a status byte, the words and their CRC. -/
def answers (t : State) (ws : List Word) : Prop :=
  ∃ st, t.met.response = (st :: ws.flatMap wordMsb) ++ [crc8 (st :: ws.flatMap wordMsb)]

/-- A reset of the metrology die has ended a session as ABORT does, and keeps what is not volatile (R215, R223). -/
def dieStopped (s t : State) : Prop :=
  t.met.running = false ∧ t.met.store = s.met.store ∧ t.met.sealCnt = s.met.sealCnt ∧ t.met.sealKey = s.met.sealKey ∧
  t.met.authFail = s.met.authFail ∧
  if s.met.sealState = .session then
    t.met.sealState = .sealed ∧ t.met.aborted = true ∧ t.met.shadow = [] ∧ t.met.newKeyWords = []
  else t.met.sealState = s.met.sealState ∧ t.met.aborted = s.met.aborted ∧ t.met.shadow = s.met.shadow ∧
    t.met.newKeyWords = s.met.newKeyWords

/-- The first byte of the last answer of the MET port: the status byte (R222). -/
def metStatusBit (t : State) (i : Nat) : Bool := (t.met.response.headD 0).getLsbD i

end Sys2Proof.Claims

/-- A check of the references stores their difference and sets REF_DISAGREE when it exceeds 100 uV, and otherwise leaves
it. An accepted write of MET_RB_CTRL with START queues the request as MET_RB_SEL and AVG stand, in the order of the
START writes and for those of one tick of the ports, or refuses it with its code and nothing else. The request in
service, its converter's codes delivered, ends with VALUE their mean by the main converter's table, SEQ = the number
of the block, TICK the latest grid point and the block flags in force, DONE set and BUSY clear; the next in the queue
follows and the block number advances. The order of the START writes of one tick, by port, and so the queue, is the
model's choice (log 98). -/
def Obligations.ReferencesAndReadbacks : Prop :=
  (∀ (s : State) (d : Word), s.met.running = true → f32Finite d = true →
    exec (.refCheck d) s = .next (s.modMet fun m => { m with
      refDiff := d, refDisagree := m.refDisagree || decide (2 ^ 149 < (f32Num d).natAbs * 10000) })) ∧
  (∀ (s : State) (w : Who) (p : PortIx) (v : Word), s.takesWrite w (0xA104 + 0x20 * p) = true → bit v 0 = true →
    let r : Readback := tget {} s.met.rb p
    Goes (exec (.readbackStart w p v) s) fun t => t = { s with met := t.met } ∧
      let q : Readback := tget {} t.met.rb p
      (∀ k : Nat, k ≠ p.val → (tget {} t.met.rb k : Readback) = tget {} s.met.rb k) ∧
      if s.rbCode p = 0 then q = { r with avg := v.extractLsb' 1 4, busy := true } ∧
        t.met.rbQueue.Perm ((p.val, r.sel, fld v 1 4, s.now) :: s.met.rbQueue) ∧
        ((s.met.rbQueue.Pairwise fun a b => 8 * a.2.2.2 + a.1 ≤ 8 * b.2.2.2 + b.1) →
          t.met.rbQueue.Pairwise fun a b => 8 * a.2.2.2 + a.1 ≤ 8 * b.2.2.2 + b.1)
      else q = { r with refused := true, errCode := s.rbCode p } ∧ t.met.rbQueue = s.met.rbQueue) ∧
  ∀ (s : State) (codes : List (BitVec 24)) (p : Nat) (sel : Word) (avg n : Nat) (r : List (Nat × Word × Nat × Nat)),
    s.met.running = true → s.met.rbQueue = (p, sel, avg, n) :: r → quietClock s = true → codes.length = 2 ^ avg →
    Goes (exec (.readbackDone codes) s) fun t => t.met.rbQueue = r ∧ t.met.blockSeq = s.met.blockSeq + 1 ∧
      s.met.rbStart + ticksNs (100000 + 2 ^ avg * 20000) ≤ t.now ∧
      let q : Readback := tget {} t.met.rb p
      q.value = (s.mainResult (fld sel 24 8) (fld sel 0 9) avg codes).1 ∧ q.seq = wd s.met.blockSeq ∧
      q.flags = s.blockFlags ∧ q.tick = BitVec.ofNat 64 (t.grid / 800 * 800) ∧ q.done = true ∧ q.busy = false

/-- With a whole frame: an OPEN in SEALED with CAL_EN high and the digital die in reset opens the session when an unused
NONCE's response is right, counting SEAL_CNT, clearing AUTH_FAIL and copying the store to the shadow, and otherwise
counts AUTH_FAIL and locks at 16; an OPEN anywhere else is refused and leaves seal, counts and NONCE. A CLOSE in
SESSION makes the shadow the store, stores LAB_ID and CAL_TIME, clears ABORTED, and installs the new key only when all
eight words of it were written. ABORT in SESSION, and CAL_EN low, discard the shadow and the new key and set ABORTED.
None touches anything but the metrology die. What a frame carries beside its named words is log 79 (the model's
choice). -/
def Obligations.SealSessionsFollowTheirTable : Prop :=
  (∀ (s : State) (addr : BitVec 24) (crc : Byte), metWhole s 3 addr [] crc = true →
    let m := s.met
    Goes (exec (.openSession addr crc) s) fun t => OnlyMet s t ∧ t.met.store = m.store ∧ t.met.sealKey = m.sealKey ∧
      if m.sealState = .sealed ∧ m.calEn = true ∧ s.dieReset = true then
        (if m.nonceUsed = false ∧ m.respNat = m.expected then
          t.met.sealState = .session ∧ t.met.sealCnt = m.sealCnt + 1 ∧ t.met.authFail = 0 ∧ t.met.shadow = m.store ∧
          t.met.nonceUsed = true
        else t.met.sealState = (if 16 ≤ m.authFail + 1 then .locked else .sealed) ∧ t.met.sealCnt = m.sealCnt ∧
          t.met.authFail = m.authFail + 1)
      else metStatusBit t 2 = true ∧ t.met.sealState = m.sealState ∧ t.met.sealCnt = m.sealCnt ∧
        t.met.authFail = m.authFail ∧ t.met.nonce = m.nonce) ∧
  (∀ (s : State) (addr : BitVec 24) (lab lo hi : Word) (crc : Byte), metWhole s 4 addr [lab, lo, hi] crc = true →
    s.met.sealState = .session →
    Goes (exec (.closeSession addr [lab, lo, hi] crc) s) fun t => OnlyMet s t ∧ t.met.sealState = .sealed ∧
      t.met.store = s.met.shadow ∧ t.met.tableDigest = Config.storeDigest s.met.shadow ∧ t.met.labId = lab ∧
      t.met.calTime = BitVec.ofNat 48 (lo.toNat + hi.toNat * 2 ^ 32) ∧ t.met.aborted = false ∧
      t.met.sealCnt = s.met.sealCnt ∧ (s.met.newKeyWords.length ≠ 8 → t.met.sealKey = s.met.sealKey)) ∧
  (∀ (s : State) (addr : BitVec 24) (crc : Byte), metWhole s 5 addr [] crc = true → s.met.sealState = .session →
    Goes (exec (.abortSession addr crc) s) fun t => OnlyMet s t ∧ t.met.sealState = .sealed ∧ t.met.aborted = true ∧
      t.met.shadow = [] ∧ t.met.newKeyWords = [] ∧ t.met.store = s.met.store ∧ t.met.sealCnt = s.met.sealCnt) ∧
  ∀ (s : State), Goes (exec .calEnLow s) fun t => OnlyMet s t ∧ t.met.calEn = false ∧ t.met.store = s.met.store ∧
    t.met.sealState = (if s.met.sealState = .session then .sealed else s.met.sealState) ∧
    t.met.aborted = (s.met.aborted || decide (s.met.sealState = .session))

/-- A READ answers at each address its word, zero where it holds none, with a CRC, and sets REFUSED exactly when some
address holds no word; in SEALED a READ of MET_NONCE has a fresh one, and no other changes it. A WRITE in SESSION to
one store word changes that word of the shadow and no word of the store; one in SEALED is refused and changes neither.
A MEASURE of a legal node and a monitor that exists answers a result block of its value and tag with the next number,
and one of another is refused. A frame cut short sets CRC_ERR in the status byte of the next frame, and so does a
frame whose CRC fails, which otherwise changes nothing but its answer. A command with another code is refused. -/
def Obligations.MetFramesAnswerAndWrite : Prop :=
  (∀ (s : State) (addr : BitVec 24) (n : Nat), s.met.running = true →
    Goes (exec (.metRead addr n) s) fun t => OnlyMet s t ∧ t.met.store = s.met.store ∧ t.met.crcErr = false ∧
      metStatusBit t 2 = ((List.range n).any fun i => (s.metWord (addr.toNat + i)).isNone) ∧
      metStatusBit t 1 = s.met.crcErr ∧ answers t ((List.range n).map fun i => (t.metWord (addr.toNat + i)).getD 0) ∧
      if s.met.sealState = .sealed ∧ (∃ i < n, nonceAddr ≤ addr.toNat + i ∧ addr.toNat + i < respAddr) then
        t.met.nonceUsed = false
      else t.met.nonce = s.met.nonce ∧ t.met.nonceUsed = s.met.nonceUsed) ∧
  (∀ (s : State) (addr : BitVec 24) (v : Word) (crc : Byte), metWhole s 2 addr [v] crc = true → addr.toNat < storeTop →
    Goes (exec (.metWrite addr [v] crc) s) fun t => OnlyMet s t ∧ t.met.store = s.met.store ∧
      if s.met.sealState = .session then metStatusBit t 2 = false ∧
        (tfind t.met.shadow addr.toNat).getD (Config.storeWord addr.toNat) = v ∧
        ∀ a, a ≠ addr.toNat → tfind t.met.shadow a = tfind s.met.shadow a
      else metStatusBit t 2 = true ∧ t.met.shadow = s.met.shadow) ∧
  (∀ (s : State) (addr : BitVec 24) (sel avg : Word) (codes : List (BitVec 24)) (crc : Byte),
    metWhole s 6 addr [sel, avg] crc = true →
    Goes (exec (.measureFrame addr [sel, avg] codes crc) s) fun t =>
      if fld sel 24 8 < 0xF ∧ avg.toNat < 16 ∧ ¬(0xA ≤ fld sel 24 8 ∧ fld sel 24 8 ≤ 0xB ∧ 64 ≤ fld sel 0 9) then
        t.met.blockSeq = s.met.blockSeq + 1 ∧ metStatusBit t 2 = false ∧ (codes.length = 2 ^ avg.toNat →
          let v := (s.mainResult (fld sel 24 8) (fld sel 0 9) avg.toNat codes).1
          let ws := s.blockWords s.met.blockSeq (if s.dieReset then 0 else t.grid / 800 * 800) [(fld sel 24 8, fld sel 0 9, v)]
          answers t (ws ++ s.tag ws))
      else OnlyMet s t ∧ t.met.blockSeq = s.met.blockSeq ∧ metStatusBit t 2 = true) ∧
  (∀ s : State, s.met.running = true → exec .metFrameAbort s = .next (s.modMet fun m => { m with crcErr := true })) ∧
  (∀ (s : State) (addr : BitVec 24) (data : List Word) (crc : Byte), s.met.running = true →
    crc8 (hostBytes 2 addr data) ≠ crc →
    Goes (exec (.metWrite addr data crc) s) fun t => OnlyMet s t ∧ t.met.crcErr = true ∧
      { t.met with crcErr := false, response := [] } = { s.met with crcErr := false, response := [] }) ∧
  ∀ (s : State) (cmd : Byte) (addr : BitVec 24) (data : List Word) (crc : Byte), metWhole s cmd.toNat addr data crc = true →
    cmd.toNat ∉ [1, 2, 3, 4, 5, 6, 0xF] →
    Goes (exec (.metUndefinedCommand cmd addr data crc) s) fun t => OnlyMet s t ∧ metStatusBit t 2 = true ∧
      { t.met with crcErr := false, response := [] } = { s.met with crcErr := false, response := [] }

/-- A whole RESET frame is refused with nothing reset while PORST_N and RESET_N are high; while the digital die is in
reset it, and a loss of supply, stop the metrology die, end a session as ABORT does, with ABORTED set and shadow and
new key discarded, and keep store, seal count, AUTH_FAIL and key. The die answers again after its reset, with
STORE_BAD exactly when the store's digest is not the table digest, and a LOCKED seal unlocked only by a loss of
supply. A mirror load whose words have the right digest is accepted; one that has not counts a try, and the third
failed try sets MIRROR_BAD; a die that does not answer sets it too. -/
def Obligations.MetrologyDieResetsAndMirror : Prop :=
  (∀ (s : State) (addr : BitVec 24) (crc : Byte), metWhole s 0xF addr [] crc = true → s.dieReset = true →
    Goes (exec (.metReset addr crc) s) fun t => OnlyMet s t ∧ dieStopped s t ∧ t.met.supplyLost = s.met.supplyLost ∧
      metStatusBit t 2 = false) ∧
  (∀ (s : State) (addr : BitVec 24) (crc : Byte), metWhole s 0xF addr [] crc = true → s.dieReset = false →
    Goes (exec (.metReset addr crc) s) fun t => OnlyMet s t ∧ metStatusBit t 2 = true ∧
      { t.met with crcErr := false, response := [] } = { s.met with crcErr := false, response := [] }) ∧
  (∀ s : State, Goes (exec .vmetLoss s) fun t => OnlyMet s t ∧ dieStopped s t ∧ t.met.supplyLost = true) ∧
  (∀ s : State, s.met.running = false → Goes (exec .metrologyResetDone s) fun t => OnlyMet s t ∧ t.met.running = true ∧
    t.met.storeBad = (Config.storeDigest s.met.store != s.met.tableDigest) ∧ t.met.store = s.met.store ∧
    t.met.sealState = if s.met.supplyLost = true ∧ s.met.sealState = .locked then .sealed else s.met.sealState) ∧
  (∀ (s : State) (wrong : List (Nat × Word)), s.top.mirrorDone = false → s.ready = true → s.met.running = true →
    let got := wrong.foldl (fun t w => storePut t w.1 w.2) s.met.store
    Goes (exec (.mirrorLoad wrong) s) fun t => t.met.store = s.met.store ∧
      if Config.storeDigest got = s.met.tableDigest then
        t.met.mirror = got ∧ t.met.mirrorOk = true ∧ t.met.mirrorBad = false ∧ t.met.mirrorTries = 0 ∧
          t.top.mirrorDone = true
      else t.met.mirror = s.met.mirror ∧
        if 2 ≤ s.met.mirrorTries then t.met.mirrorBad = true ∧ t.met.mirrorOk = false ∧ t.top.mirrorDone = true
        else t.met.mirrorTries = s.met.mirrorTries + 1 ∧ t.met.mirrorBad = s.met.mirrorBad ∧ t.top.mirrorDone = false) ∧
  ∀ s : State, s.top.mirrorDone = false → s.ready = true → s.met.running = false →
    Goes (exec .metAnswerTimeout s) fun t => t.met.mirrorBad = true ∧ t.met.mirrorOk = false ∧ t.top.mirrorDone = true ∧
      t.met.mirror = s.met.mirror ∧ (quietClock s = true → s.top.readyTick + 8000000 ≤ t.now)

namespace Sys2Proof.Claims

/-- A queued job of a port that R35 lets act, with every field legal, no commit in progress and the digital die powered
(R254, R271). -/
def Startable (s : State) (p : Nat) (tag : BitVec 16) (j : Job) : Prop :=
  s.job p tag = some j ∧ j.phase = .queued ∧ s.mayStart p j = true ∧ j.fieldBad = none ∧ s.img.stg ≠ .committing ∧
    s.powered = true

/-- A port may fetch a descriptor (R268): queues enabled, link up, an entry at the head, and room for its completion. -/
def mayFetch (x : Port) : Bool :=
  let size := max 1 x.cqSize.toNat
  x.en && !x.quiescing && x.linkUp && x.sqHead != x.sqTail && decide (x.jobs.length < 256) &&
    decide (x.jobs.length + (x.cqTail.toNat + size - x.cqHead.toNat) % size + 1 < x.cqSize.toNat)

/-- A job of a port with a tag has ended with a status, a detail and a result (R274). -/
def EndedWith (t : State) (p : Nat) (tag : BitVec 16) (status detail result : Nat) : Prop :=
  ∃ k ∈ (t.port p).jobs, k.tag = tag ∧ k.phase = .ended ∧ k.status = status ∧ k.detail = detail % 2 ^ 16 ∧
    k.result = result % 2 ^ 64

/-- The one armed APPLY has become a: once it has landed or ended in every gang it names it is gone, with its status and its job's
end, and until then it waits (R260). -/
def applyMoved (s t : State) (a : Apply) : Prop :=
  let st : ApplyStat := tget {} t.img.apply a.port
  if a.gangs.all fun g => (tfind a.landed g).isSome || a.ended.contains g then
    t.img.applies = [] ∧ match a.ended.min? with
      | none => st = { state := 2, beat := a.beat } ∧ ∀ j, s.job a.port a.tag = some j → EndedWith t a.port a.tag 0 0 a.beat
      | some g => st = { state := 4, reason := 0xA, bench := s.lead g, beat := a.beat } ∧
        ∀ j, s.job a.port a.tag = some j → EndedWith t a.port a.tag 9 0xA a.beat
  else t.img.applies = [a] ∧ t.img.apply = s.img.apply

/-- A notice has at most changed the ports, and the image block is x (R245). -/
def OnlyImgAndPorts (s t : State) (x : Img) : Prop := t = { s with img := x, ports := t.ports }

end Sys2Proof.Claims

/-- A write of IMG_CTRL with LOAD alone starts a copy from the source, address and length of the registers, with 4 GiB for
a length of 0, except in LOADING, CHECKING and COMMITTING, where it only sets BADCMD; CHECK alone acts in LOADED,
DISCARD alone in LOADED, CHECKED and REFUSED, and elsewhere they only set BADCMD. With no boot in progress, the end of
a copy leads to LOADED, or to EMPTY with REASON LOAD when it failed; the end of a check leads to REFUSED with the
first failing check's registers, a content that SIGNATURE or DECRYPT refuses being gone, or to CHECKED. A copy from
the flash occupies the peripheral SPI port from the moment that port is free until the copy ends. Besides the image
block and that only a port changes, by its notice. -/
def Obligations.ImageLoadsAndChecks : Prop :=
  (∀ (s : State) (w : Who) (v : Word), s.takesWrite w 0x8000 = true → fld v 0 4 = 1 →
    exec (.imgLoad w v) s = .next (
      if s.img.stg = .loading ∨ s.img.stg = .checking ∨ s.img.stg = .committing then s.modImg fun x => { x with badCmd := true }
      else (s.modImg fun x => { x with
          stg := .loading, staged := none, copyFlash := x.srcFlash, copyAddr := x.loadAddr.toNat,
          copyLen := if x.loadLen.toNat = 0 then 2 ^ 32 else x.loadLen.toNat }).modSpim fun y =>
        if s.img.srcFlash && y.flashMode then { y with
          flashFrom := some (max s.now y.idleFrom),
          flashLeft := if s.img.loadLen.toNat = 0 then 2 ^ 32 else s.img.loadLen.toNat } else y)) ∧
  (∀ (s : State) (w : Who) (v : Word), s.takesWrite w 0x8000 = true → fld v 0 4 = 2 →
    exec (.imgCheck w v) s = .next (s.modImg fun x =>
      if x.stg = .loaded then { x with stg := .checking, reason := 0, dCode := 0, dIndex := 0, value := 0, limit := 0 }
      else { x with badCmd := true })) ∧
  (∀ (s : State) (w : Who) (v : Word), s.takesWrite w 0x8000 = true → fld v 0 4 = 8 →
    exec (.imgDiscard w v) s = .next (s.modImg fun x =>
      if x.stg = .loaded ∨ x.stg = .checked ∨ x.stg = .refused then { x with stg := .empty, staged := none }
      else { x with badCmd := true })) ∧
  (∀ (s : State) (c : Container), s.img.stg = .loading → s.top.booting = false →
    (if s.img.copyFlash = true then s.img.copyAddr + s.img.copyLen ≤ 2 ^ 24 ∧ bit (s.spim.cfg 0) 31 = bit (s.spim.cfg 0) 30
      else (s.port s.top.adminPort).linkUp = true) →
    Goes (exec (.loadComplete (some c)) s) fun t => OnlyImgAndPorts
      { s with spim := { s.spim with flashFrom := none, flashLeft := 0, idleFrom := t.spim.idleFrom } } t
      { s.img with stg := .loaded, staged := some c }) ∧
  (∀ s : State, s.img.stg = .loading → s.top.booting = false →
    Goes (exec (.loadComplete none) s) fun t => OnlyImgAndPorts
      { s with spim := { s.spim with flashFrom := none, flashLeft := 0, idleFrom := t.spim.idleFrom } } t { s.img with stg := .empty, staged := none, reason := 1 }) ∧
  ∀ (s : State) (c : Container), s.img.stg = .checking → s.img.staged = some c → s.top.booting = false →
    Goes (exec .checkComplete s) fun t => match s.admitBad c s.img.copyLen, c.content with
      | some f, _ => OnlyImgAndPorts s t { s.img.failed f with
          stg := .refused, staged := some (if f.reason = 4 ∨ f.reason = 5 then { c with content := none } else c) }
      | none, some _ => OnlyImgAndPorts s t { s.img with
          stg := .checked, projPwr := t.img.projPwr, projTj := t.img.projTj, projRegion := t.img.projRegion }
      | none, none => t = s

/-- A COMMIT in another state of the staging slot than CHECKED, or on a device that is not quiescent, is refused with its
reason and keeps the slot's state and every bench. An accepted one clears the reason, gates every bench, empties every
staging area and stops Contact Watch. At its completion, with no boot in progress, the slot is EMPTY, the image is the
active one in the other slot, and the regions, the owners of partitions, the routes and the cooling class are the
image's, with every bench gated. -/
def Obligations.CommitsTakeEffect : Prop :=
  (∀ (s : State) (w : Who) (v : Word), s.takesWrite w 0x8000 = true → fld v 0 4 = 4 → s.top.booting = false →
    Goes (exec (.imgCommit w v) s) fun t => match s.commitBad with
      | some f => t = { s with img := t.img, ports := t.ports } ∧ t.img.stg = s.img.stg ∧ t.img.reason = f.reason ∧
        t.img.dCode = f.code ∧ t.img.value = f.value ∧ t.img.limit = f.limit
      | none => t.img.stg = .committing ∧ t.img.reason = 0 ∧ t.img.staged = s.img.staged ∧
        t.img.commitTick = s.now ∧ t.top.cwRun = false ∧ t.top.cwOk = false ∧
        ∀ b, b < 64 → (t.bench b).stgItems = [] ∧ (t.bench b).awake = false ∧ (t.bench b).seq.state = .gated) ∧
  (∀ s : State, (s.img.stg ≠ .checked ∨ s.img.staged.bind (·.content) = none) →
    s.commitBad = some { reason := 0x15 }) ∧
  (∀ (s : State) (i : Image), s.img.stg = .checked → s.img.staged.bind (·.content) = some i → s.notQuiescent.1 = true →
    s.commitBad = some { reason := 0x16 }) ∧
  ∀ (s : State) (c : Container) (i : Image), s.img.stg = .committing → s.img.staged = some c → c.content = some i →
    s.top.booting = false →
    Goes (exec .commitComplete s) fun t => t.img.stg = .empty ∧ t.img.staged = none ∧ t.img.active = some c ∧
      t.img.activeValid = true ∧ t.img.activeSlot = !s.img.activeSlot ∧ t.img.actHash = c.imageId.extractLsb' 0 64 ∧
      t.regions = i.regions ∧ t.partPort = i.partPort ∧ t.trigx.routes = i.routes ∧ t.trigx.en = i.routeEn ∧
      t.pwr.cls = i.cooling ∧ t.flt.cls = i.fault.cls ∧ t.spim.table = imgFrameTable i ∧
      ∀ b, b < 64 → (t.bench b).awake = false ∧ (t.bench b).seq.state = .gated

/-- A PUSH of a legal target in the port's partition appends the item to every area concerned, or, if one of them is full,
to none, setting OVF in the full ones; another sets ERR. A CLEAR empties the area named. The fetch of a legal APPLY in
the port's partition takes the items of its gangs and leaves their areas empty with OVF clear; an APPLY job that
nothing refuses is then validated with the items it took. APPLY_ARM arms a validated APPLY with its cut point, or with
the epoch of R24 where it names none, and sets STATE ARMED; one refused there is dropped, with its reason in
IMG_APPLY_STATUS and its job ended with APPLY. That what R259 refuses is judged again at arming is log 61. When the
beat of a gang at which an armed APPLY lands issues, the slot map, library and APG items of its benches act at once
and those of the parameter memory travel with the beat, unless a direct write since has made one illegal, which
refuses it with ITEM (log 87); on another beat it stays armed. The end of a run ends the APPLYs armed for its gang.
Once an APPLY has landed or ended in every gang it names, its status and its job say with which beat, or end with
APPLY. -/
def Obligations.StagingAndApply : Prop :=
  (∀ (s : State) (w : Who) (p : PortIx) (v : Word), s.takesWrite w (0x8108 + 0x20 * p) = true →
    bit v 31 = false → bit v 1 = false → bit v 0 = true →
    let r : StgPort := tget {} s.img.stgPort p
    let bs := s.itemBenches r.target
    exec (.stgPush w p v) s = .next (
      if s.stgOwn p = true ∧ fld r.target 16 6 = 0 then
        (if ∃ b ∈ bs, 256 ≤ (s.bench b).stgItems.length then
          s.each (bs.filter fun b => 256 ≤ (s.bench b).stgItems.length) fun b => State.modBench b fun x => { x with stgOvf := true }
        else s.each bs fun b => State.modBench b fun x =>
          { x with stgItems := x.stgItems ++ [(withBench r.target b, r.value)] })
      else s.modImg fun x => { x with stgPort := tmod {} x.stgPort p fun q => { q with err := true } })) ∧
  (∀ (s : State) (w : Who) (p : PortIx) (v : Word), s.takesWrite w (0x8108 + 0x20 * p) = true →
    bit v 31 = false → bit v 1 = true → bit v 0 = false → s.stgOwn p = true →
    exec (.stagingClear w p v) s = .next (s.modBench (itBench (tget {} s.img.stgPort p : StgPort).target) fun x =>
      { x with stgItems := [], stgOvf := false })) ∧
  (∀ (s : State) (p : PortIx) (tag : BitVec 16) (j : Job), Startable s p tag j → j.type = 6 →
    j.refuse = 0 → j.takenOvf = false → s.applyBad (bitsSet 64 (j.w64 2)) (cutOf j) j.taken = none →
    Goes (exec (.applyJob p tag) s) fun t => t = { s with img := t.img, ports := t.ports } ∧
      t.img = { s.img with applies := s.img.applies ++
        [{ port := p, tag := tag, cut := cutOf j, gangs := bitsSet 64 (j.w64 2), items := j.taken }] }) ∧
  (∀ (s : State) (p : PortIx) (ws : List Word),
    let x := s.port p
    let j : Job := { words := ws.take 16, sqIndex := x.sqHead.toNat, tag := (ws.getD 0 0).extractLsb' 16 16 }
    let gs := bitsSet 64 (j.w64 2)
    let bs := gs.flatMap s.gangBenches
    j.type = 6 → j.fieldBad = none → mayFetch x = true → (∀ i ∈ x.jobs, i.tag ≠ j.tag) →
    (gs.length ≤ 1 ∨ fld (j.w 1) 0 2 = 0 ∨ fld (j.w 1) 0 2 = 3) →
    (∀ g ∈ gs, s.ownerOf (some (s.gang g).cfg.partition) = some p.val ∧ (tfind s.gangs g).isSome = true) →
    Goes (exec (.descriptorFetch p ws) s) fun t =>
      (∀ b ∈ bs, (t.bench b).stgItems = [] ∧ (t.bench b).stgOvf = false) ∧
      t.job p j.tag = some { j with
        taken := bs.flatMap fun b => (s.bench b).stgItems, takenOvf := bs.any fun b => (s.bench b).stgOvf }) ∧
  (∀ (s : State) (p : PortIx) (tag : BitVec 16) (a : Apply),
    (s.img.applies.find? fun b => b.is p tag && !b.armed) = some a →
    let cut := if a.cut = .none then .epoch s.nextCut else a.cut
    let s' := s.modImg fun x => { x with applies := x.applies.filter fun b => !b.is p tag }
    Goes (exec (.applyArm p tag) s) fun t =>
      match s'.applyBad a.gangs cut a.items with
      | none => t = { s with img := t.img } ∧
        t.img.applies = s'.img.applies ++ [{ a with cut := cut, armed := true, armTick := s.now }] ∧
        (tget {} t.img.apply p : ApplyStat).state = 1
      | some (r, _, _, _) => t.img.applies = s'.img.applies ∧ (tget {} t.img.apply p : ApplyStat).state = 3 ∧
        (tget {} t.img.apply p : ApplyStat).reason = r ∧ ∀ j, s.job p tag = some j → EndedWith t p tag 9 r 0) ∧
  (∀ (s : State) (g : GangIx) (a : Nat) (w : BitVec 48) (ap : Apply), s.img.applies = [ap] →
    due (s.modImg fun x => { x with applies := [] }) g a w = true → muOp w = 0 → 0 < (s.gang g).cfg.bw →
    let n := (s.bench (s.lead g)).seq.beat
    let its := ap.items.filter fun i => (s.gangBenches g).contains (itBench i.1)
    let landed := its.foldl (fun x i => x.landItem i) s
    Goes (exec (.next g) s) fun t => (Issued s t g a fun _ _ _ => True) ∧
      if ap.hits g n s.now s.grid (muCut w) = false then t.img = s.img
      else match s.badItem [g.val] (fun _ => []) its with
        | some (code, item, b) => t.img.applies = [] ∧ (tget {} t.img.apply ap.port : ApplyStat) =
            { state := 3, reason := 5, code := code, item := item, bench := b, beat := ap.beat } ∧
          ∀ j, s.job ap.port ap.tag = some j → EndedWith t ap.port ap.tag 9 5 ap.beat
        | none => applyMoved s t { ap with landed := tput ap.landed g n } ∧
          ∀ b ∈ s.gangBenches g, (t.bench b).tmg = (landed.bench b).tmg ∧ ∀ x ∈ (t.bench b).fifo.getLast?,
            x.items = ((its.filter fun i => itSpace i.1 = 2 ∧ itBench i.1 = b).map fun i => (itOff i.1, i.2)) ∧
            let r := (landed.bench b).apg.regs
            ∀ v ∈ x.vecs.head?, (v.snap.x, v.snap.y, v.snap.z) = (r.x, r.y, r.z)) ∧
  ∀ (s : State) (g : GangIx) (ap : Apply), gangOk s g = true →
    allBenches s g (fun x => x.seq.state == .drain && x.fifo.isEmpty && x.flight.isEmpty) = true →
    s.img.applies = [ap] → ap.armed = true → g.val ∈ ap.gangs → tfind ap.landed g = none → g.val ∉ ap.ended →
    Goes (exec (.drainComplete g) s) fun t => applyMoved s t { ap with ended := g.val :: ap.ended }

/-- A tail below SIZE is stored and another sets DB_ERR. EN = 1 with legal rings zeroes every head and tail, and with an
illegal one sets CFG_ERR. EN = 0 on a running queue abandons the port's jobs without completions and sets QUIESCING
with EN still set; the end of the quiescing clears both. A fetch allowed by R268 advances the head and puts the job in
flight, queued, or ended at once with TAG where its tag is that of a job in flight, or with TYPE where its type is
undefined and no FENCE is in flight before it (R273); one not allowed changes nothing. -/
def Obligations.QueuesTakeDescriptors : Prop :=
  (∀ (s : State) (w : Who) (p : PortIx) (v : Word), s.takesWrite w (0x601C + 0x400 * p) = true →
    exec (.hostSqTailWrite w p v) s = .next (s.modPort p fun x =>
      if x.sqSize.toNat ≤ fld v 0 12 then { x with dbErr := true } else { x with sqTail := v.extractLsb' 0 12 })) ∧
  (∀ (s : State) (w : Who) (p : PortIx) (v : Word), s.takesWrite w (0x6000 + 0x400 * p) = true → bit v 0 = true →
    (s.port p).quiescing = false → (s.port p).en = false →
    exec (.queueEnable w p v) s = .next (s.modPort p fun x =>
      if ringOk x.sqBase x.sqSize && ringOk x.cqBase x.cqSize && ringOk x.nqBase x.nqSize then { x with
        en := true, orphan := false, sqTail := 0, sqHead := 0, cqHead := 0, cqTail := 0, nqHead := 0, nqTail := 0,
        cqPhase := true, nqPhase := true }
      else { x with cfgErr := true })) ∧
  (∀ (s : State) (w : Who) (p : PortIx) (v : Word), s.takesWrite w (0x6000 + 0x400 * p) = true → bit v 0 = false →
    (s.port p).en = true → (s.port p).quiescing = false →
    Goes (exec (.queueDisable w p v) s) fun t => t.port p = { s.port p with jobs := [], quiescing := true } ∧
      ∀ q, q ≠ p.val → t.port q = s.port q) ∧
  (∀ (s : State) (p : PortIx), (s.port p).quiescing = true →
    Goes (exec (.quiesceDone p) s) fun t =>
      UpToAgreement (s.modPort p fun x => { x with quiescing := false, en := false }) t) ∧
  ∀ (s : State) (p : PortIx) (ws : List Word),
    let x := s.port p
    let ty := fld (ws.getD 0 0) 0 8
    let tag := (ws.getD 0 0).extractLsb' 16 16
    Goes (exec (.descriptorFetch p ws) s) fun t =>
      if mayFetch x = true then
        (∀ q, q ≠ p.val → t.port q = s.port q) ∧
        ∃ (js : List Job) (j : Job), (t.port p).jobs = js ++ [j] ∧
          ((∀ i ∈ x.jobs, i.phase = .queued → i.typeBad = true → s.mayStart p i = false) → js = x.jobs) ∧ j.words = ws.take 16 ∧ j.tag = tag ∧ j.sqIndex = x.sqHead.toNat ∧
          (t.port p).sqHead = BitVec.ofNat 12 ((x.sqHead.toNat + 1) % max 1 x.sqSize.toNat) ∧
          if (∃ i ∈ x.jobs, i.tag = tag) then j.phase = .ended ∧ j.status = 3
          else if (ty = 0 ∨ 9 < ty) ∧ ∀ i ∈ x.jobs, i.type ≠ 9 then j.phase = .ended ∧ j.status = 1
          else j.phase = .queued
      else t = s

/-- A start that nothing refuses arms every named gang for its epoch and ends OK with that epoch; one over the guyline
waits there, and no gang changes state. With no start waiting for the guyline, a stop that finds no named gang armed
or running ends OK; otherwise a gang ARMED before its start epoch enters STOPPED at once, one that runs has the stop
requested and enters DRAIN if it is at a boundary with room in its FIFOs, one in DRAIN or ended stays, and the job
runs on while any of them is not ended. A STREAM given all its bytes puts them in its ring, leaves every other HBM
byte, advances PROD over whole records and ends OK. A FETCH given all its bytes copies them either way, leaves every
other byte, and ends OK. A MEASURE writes for each result time one block after another in host memory, the results
delivered for that time with their tag and the next number, leaves every other byte, and ends OK after the last; when
host memory refuses a block part of it is there and the job ends with DMA. A REPAIR_REPORT of an engine in DONE copies
132 words a region and ends OK. -/
def Obligations.JobsDoTheirWork : Prop :=
  (∀ (s : State) (p : PortIx) (tag : BitVec 16) (j : Job), Startable s p tag j → j.type = 1 → fld (j.w 1) 0 2 = 0 →
    bit (j.w 1) 5 = false →
    let gs := bitsSet 64 (j.w64 2)
    let e := if j.w64 4 = 0 then s.nextCut else j.w64 4
    (∀ g ∈ gs, s.ownsGang p g = true ∧ s.gangBenches g ≠ []) → s.startBad gs = none → s.inTime e = true →
    Goes (exec (.runStart p tag) s) fun t => EndedWith t p tag 0 0 e ∧
      ∀ g ∈ gs, t.gangState g = .armed ∧ (t.gang g).startEpoch = e) ∧
  (∀ (s : State) (p : PortIx) (tag : BitVec 16) (j : Job), Startable s p tag j → j.type = 1 → fld (j.w 1) 0 2 = 0 →
    bit (j.w 1) 5 = true → (∀ g ∈ bitsSet 64 (j.w64 2), s.ownsGang p g = true) → s.guyBad (bitsSet 64 (j.w64 2)) = none →
    Goes (exec (.runStart p tag) s) fun t => t.guy.waiting = s.guy.waiting ++ [(p.val, tag, s.now)] ∧ t.guy.state = 1 ∧
      (t.job p tag).map (·.phase) = some .running ∧ t.benches = s.benches ∧ t.gangs = s.gangs) ∧
  (∀ (s : State) (p : PortIx) (tag : BitVec 16) (j : Job), Startable s p tag j → j.type = 1 → fld (j.w 1) 0 2 = 1 →
    (∀ i ∈ (s.port p).jobs, guyWait i j = false ∧ (i.tag = tag → i.phase ≠ .ended → i = j)) →
    let gs := bitsSet 64 (j.w64 2)
    let early (g : Nat) : Prop := s.gangState g = .armed ∧ s.grid < 256 * (s.gang g).startEpoch
    (∀ g ∈ gs, s.ownsGang p g = true ∧ gangOk s g = true) → (∃ g ∈ gs, (s.gangState g).busy = true ∧ ¬early g) →
    Goes (exec (.runStop p tag) s) fun t => (t.job p tag).map (·.phase) = some .running ∧ ∀ g ∈ gs,
      (early g → t.gangState g = .stopped) ∧
      ((s.gangState g).busy = false ∨ s.gangState g = .drain → t.gangState g = s.gangState g ∧
        (t.gang g).stopReq = (s.gang g).stopReq) ∧
      (¬early g → (s.gangState g).busy = true → s.gangState g ≠ .drain → (t.gang g).stopReq = true ∧
        t.gangState g = if s.gangState g ∈ [.issue, .wait, .sync] ∧ s.atBoundary g = true ∧ s.fifoFull g = false then .drain
          else s.gangState g)) ∧
  (∀ (s : State) (p : PortIx) (tag : BitVec 16) (j : Job), Startable s p tag j → j.type = 1 → fld (j.w 1) 0 2 = 1 →
    (∀ g ∈ bitsSet 64 (j.w64 2), s.ownsGang p g = true ∧ (s.gangState g).busy = false) →
    (∀ i ∈ (s.port p).jobs, guyWait i j = false) →
    Goes (exec (.runStop p tag) s) fun t =>
      EndedWith t p tag 0 0 (s.bench (s.lead ((bitsSet 64 (j.w64 2)).headD 0))).seq.beat) ∧
  (∀ (s : State) (p : PortIx) (tag : BitVec 16) (j : Job) (bs : List Byte), Startable s p tag j → j.type = 2 →
    let b := fld (j.w 1) 0 6
    let y := (s.bench b).strm
    let n := j.w64 4
    s.benchOwner b = some p.val → y.cfg.fmt ≠ 0 → y.cfg.hostFed = true → n % max 1 y.recSize = 0 → n ≤ y.cfg.size →
    y.prod + n ≤ y.limit → bs.length = n → j.done = 0 → State.hbmOk s →
    Goes (exec (.streamJob p tag (some bs)) s) fun t =>
      let q := y.prod + n - (y.prod + n) % max 1 y.recSize
      (t.bench b).strm.prod = q ∧ EndedWith t p tag 0 0 q ∧
      (∀ k, k < n → t.hbmAt (y.addr (y.prod + k)) = bs.getD k 0) ∧
      ∀ a, (∀ k, k < n → a ≠ y.addr (y.prod + k)) → t.hbmAt a = s.hbmAt a) ∧
  (∀ (s : State) (p : PortIx) (tag : BitVec 16) (j : Job) (bs : List Byte), Startable s p tag j → j.type = 3 →
    let n := j.w64 6
    (∃ q ∈ s.partsOf p, s.rangeIn q (j.w64 2) n = true) → bs.length = n → j.done = 0 → State.memOk s →
    Goes (exec (.fetchJob p tag (some bs)) s) fun t => EndedWith t p tag 0 0 n ∧
      if bit (j.w 1) 0 = true then
        (∀ k, k < n → t.hbmAt (j.w64 2 + k) = bs.getD k 0) ∧
        ∀ a, (a < j.w64 2 ∨ j.w64 2 + n ≤ a) → t.hbmAt a = s.hbmAt a
      else t.hbm = s.hbm ∧ ∀ k, k < n → memGet (t.port p).hostMem (j.w64 4 + k) = s.hbmAt (j.w64 2 + k)) ∧
  (∀ (s : State) (p : PortIx) (tag : BitVec 16) (j : Job) (ok : Bool), j.type = 4 → s.met.running = true → State.hostOk s →
    (s.job p tag = some j ∧ j.phase = .running) ∨ (Startable s p tag j ∧ s.top.cwRun = false ∧
      (∀ c ∈ j.measured, s.benchOwner c.1 = some p.val) ∧
      ∀ c ∈ j.measured, ∀ d ∈ j.measured, (s.lane c.1 c.2).resultUs = (s.lane d.1 d.2).resultUs) →
    let us := ((j.measured.head?).map fun c => (s.lane c.1 c.2).resultUs).getD 1
    let f := gridAfter us (if j.phase = .running then j.startTick else s.grid) + 800 * us * j.done
    let size := 0x28 + 8 * j.measured.length
    let a0 := j.w64 6 + j.done * size
    let held (x : State) (a : Nat) : Byte := memGet (x.port p).hostMem a
    Goes (exec (.measureJob p tag ok) s) fun t => t.hbm = s.hbm ∧ t.met.blockSeq = s.met.blockSeq + 1 ∧
      ∃ (vs : List (Nat × Nat × Word)) (n : Nat),
        vs.map (fun v => (v.1, v.2.1)) = j.measured.map (fun c => (9, 8 * c.1 + c.2)) ∧
        (∀ c v, (c, v) ∈ j.measured.zip vs → ∀ x ∈ (s.chan c.1 c.2).adcResults.find? fun x => x.1 = f, v.2.2 = x.2) ∧
        (let ws := s.blockWords s.met.blockSeq f vs
         let bs := wordBytes (ws ++ s.tag ws)
         bs.length = size ∧ (∀ k < n, held t (a0 + k) = bs.getD k 0) ∧
         ∀ a, (a < a0 ∨ a0 + n ≤ a) → held t a = held (s.advanceTo (s.now + (f - s.grid))) a) ∧
        if ok = true then n = size ∧
          if j.done + 1 < (j.w 4).toNat then (t.job p tag).map (fun k => (k.phase, k.done)) = some (.running, j.done + 1)
          else EndedWith t p tag 0 0 (j.w 4).toNat
        else n < size ∧ EndedWith t p tag 0xD 0 (j.done * size + n)) ∧
  ∀ (s : State) (p : PortIx) (tag : BitVec 16) (j : Job), Startable s p tag j → j.type = 7 →
    let e := fld (j.w 1) 0 6
    let c := (s.rae e).cfg
    s.raeOwner e = some p.val → (j.w 4).toNat + (j.w 5).toNat ≤ 2 ^ (c.zr + c.xr + c.yr) → (s.rae e).state = .done →
    exec (.repairReport p tag true) s = .next ((s.hostWrite p (j.w64 2) (wordBytes ((List.range (132 * (j.w 5).toNat)).map
      fun i => (s.rae e).solution (132 * (j.w 4).toNat + i)))).endJob p tag 0 0 (132 * (j.w 5).toNat))

/-- A CAL on owned benches that are neither ARMED nor running runs; a gated bench counts as neither (log 48, the model's
choice). Its end gives every lane its TDR word, changes the deskew word of exactly the lanes that are OK, and ends the
job OK, or PARTIAL with the first bench of a lane that is not. A SCHEDULE of an owned, disarmed comparator arms it. A
FENCE that may act ends OK. The completion of the only job in flight is written at the tail of its ring, which
advances, and the job leaves; with IRQ it is signalled on MSI-X vector 0. -/
def Obligations.JobsCalibrateScheduleAndEnd : Prop :=
  (∀ (s : State) (p : PortIx) (tag : BitVec 16) (j : Job), Startable s p tag j → j.type = 5 → s.top.cwRun = false →
    (∀ b ∈ bitsSet 64 (j.w64 2), s.benchOwner b = some p.val ∧ (s.bench b).seq.state.busy = false) →
    exec (.calJob p tag) s = .next (s.modJob p tag fun k => { k with phase := .running, startTick := s.grid })) ∧
  (∀ (s : State) (p : PortIx) (tag : BitVec 16) (j : Job) (sweeps : List TdrSweep), s.job p tag = some j → j.type = 5 →
    j.phase = .running →
    let bs := bitsSet 64 (j.w64 2)
    let word (b l : Nat) := tdrWord (8 * b + l)
      ((sweeps.find? fun w => w.bench.val = b && w.lane.val = l).bind tdrPath)
    let bad := bs.filter fun b => (List.range 8).any fun l => (word b l).2.isNone
    Goes (exec (.calComplete p tag sweeps) s) fun t =>
      EndedWith t p tag (if bad = [] then 0 else 0xB) (bad.headD 0) 0 ∧
      (∀ b ∈ bs, ∀ l, l < 8 → t.chan b l =
        { s.chan b l with tdr := (word b l).1, dsk := ((word b l).2).getD (s.chan b l).dsk }) ∧
      ∀ b l, b ∉ bs → t.chan b l = s.chan b l) ∧
  (∀ (s : State) (p : PortIx) (tag : BitVec 16) (j : Job), Startable s p tag j → j.type = 8 → fld (j.w 1) 8 2 = 0 →
    let i := fld (j.w 1) 0 4
    s.ownerOf (some (s.cmp i).part) = some p.val → (s.cmp i).armed = false →
    exec (.scheduleJob p tag) s = .next ((s.modJob p tag fun k => { k with phase := .running, startTick := s.grid }).modCmp i
      fun c => { c with
        sec := BitVec.ofNat 48 (j.w64 2), ns := BitVec.ofNat 30 (j.w 4).toNat, armed := true, fired := false, late := false,
        action := 0, port := p, tag := tag, mask := BitVec.ofNat 64 (j.w64 6), armTick := s.now,
        armLate := decide (timeUnits (BitVec.ofNat 48 (j.w64 2)) (BitVec.ofNat 30 (j.w 4).toNat) ≤ s.local) })) ∧
  (∀ (s : State) (p : PortIx) (tag : BitVec 16) (j : Job), s.job p tag = some j → j.phase = .queued → s.mayStart p j = true →
    j.fieldBad = none → j.type = 9 →
    Goes (exec (.fenceJob p tag) s) fun t => EndedWith t p tag 0 0 0 ∧ t = { s with ports := t.ports } ∧
      ∀ q, q ≠ p.val → t.port q = s.port q) ∧
  ∀ (s : State) (p : PortIx) (tag : BitVec 16) (j : Job), State.hostOk s → (s.port p).jobs = [j] → j.tag = tag →
    j.phase = .ended → (s.port p).en = true → (s.port p).quiescing = false →
    let x := s.port p
    let nx := (x.cqTail.toNat + 1) % max 1 x.cqSize.toNat
    Goes (exec (.jobComplete p tag) s) fun t => t = { s with ports := t.ports } ∧ (t.port p).jobs = [] ∧
      (t.port p).cqTail = BitVec.ofNat 12 nx ∧ (t.port p).cqPhase = (if nx = 0 then !x.cqPhase else x.cqPhase) ∧
      tget 0 (t.port p).msix 0 = tget 0 x.msix 0 + (if bit (j.w 0) 8 then 1 else 0) ∧
      memGetList (t.port p).hostMem (x.cqBase.toNat + 16 * x.cqTail.toNat) 16 = wordBytes
        [flag x.cqPhase 31 ||| at' j.status 16 ||| wd tag.toNat, at' j.detail 16 ||| wd j.sqIndex, wordOf j.result 0,
          wordOf j.result 1] ∧
      ∀ a, (a < x.cqBase.toNat + 16 * x.cqTail.toNat ∨ x.cqBase.toNat + 16 * x.cqTail.toNat + 16 ≤ a) →
        memGet (t.port p).hostMem a = memGet x.hostMem a

/-- Over a port's link and with the device powered, a read answers the bytes of the port's own regions and zero for every
other, and changes no byte of HBM; a write stores exactly the bytes that lie in its own regions. Either sets PART_VIOL
when a byte lies in another partition's region and UNMAPPED when one lies in none. The loss of a present port takes
its link, EN, jobs and holding tag away, sets ORPHAN and disarms its comparators; its link comes up again with the
speed it trained to and a width up to the lanes that the lane split gives it. -/
def Obligations.AperturesAndLinks : Prop :=
  (∀ (s : State) (p : PortIx) (addr : BitVec 36) (n : Nat), (s.port p).linkUp = true → s.powered = true →
    Goes (exec (.apertureRead p addr n) s) fun t => t.hbm = s.hbm ∧
      (t.reader p).bytes = ((List.range n).map fun i =>
        if s.reach p (addr.toNat + i) = .own then s.hbmAt (addr.toNat + i) else 0) ∧
      (t.port p).partViol = ((s.port p).partViol || (List.range n).any fun i => decide (s.reach p (addr.toNat + i) = .other)) ∧
      (t.port p).unmapped = ((s.port p).unmapped || (List.range n).any fun i => decide (s.reach p (addr.toNat + i) = .none))) ∧
  (∀ (s : State) (p : PortIx) (addr : BitVec 36) (bs : List Byte), (s.port p).linkUp = true → s.powered = true →
    State.hbmOk s →
    Goes (exec (.apertureWrite p addr bs) s) fun t => t = { s with hbm := t.hbm, ports := t.ports } ∧
      (∀ a, t.hbmAt a = if addr.toNat ≤ a ∧ a < addr.toNat + bs.length ∧ s.reach p a = .own
        then bs.getD (a - addr.toNat) 0 else s.hbmAt a) ∧
      (t.port p).partViol =
        ((s.port p).partViol || (List.range bs.length).any fun i => decide (s.reach p (addr.toNat + i) = .other)) ∧
      (t.port p).unmapped =
        ((s.port p).unmapped || (List.range bs.length).any fun i => decide (s.reach p (addr.toNat + i) = .none))) ∧
  (∀ (s : State) (p : PortIx), s.present p = true →
    Goes (exec (.portLoss p) s) fun t => (t.port p).linkUp = false ∧ (t.port p).en = false ∧ (t.port p).orphan = true ∧
      (t.port p).quiescing = false ∧ (t.port p).jobs = [] ∧ (t.reader p).tag = none ∧ t.regions = s.regions ∧ t.partPort = s.partPort ∧
      ∀ i, i < 16 → (s.cmp i).part ∈ s.partsOf p → (t.cmp i).armed = false) ∧
  ∀ (s : State) (p : PortIx) (w : BitVec 5) (v : BitVec 4), s.present p = true → s.pwr.dieUp = true →
    s.pwr.pstate ≠ .aon → exec (.linkUp p w v) s = .next (
      if w.toNat ≤ s.lanesOf then s.modPort p fun x => { x with linkUp := true, width := w, speed := v } else s)

namespace Sys2Proof.Claims

/-- A frame of the management port is whole and its CRC right, outside cold reset (R283, R289). -/
def mspiWhole (s : State) (cmd : Nat) (addr : BitVec 24) (data : List Word) (crc : Byte) : Bool :=
  !s.top.porstLow && crc8 (hostBytes cmd addr data) == crc

/-- The response of a read frame: turnaround, words, status byte, CRC_D; and of a write frame: status byte and CRC_D (R283). -/
def ReadAnswer (t : State) (ws : List Word) (st : Byte) : Prop :=
  t.spim.response = (0 : Byte) :: (ws.flatMap wordMsb ++ [st]) ++ [crc8 (ws.flatMap wordMsb ++ [st])]
def WriteAnswer (t : State) (st : Byte) : Prop := t.spim.response = [st, crc8 [st]]

/-- The bits of one byte, most significant first, pushed into the register of the polynomial x^8 + x^2 + x + 1 (R284). -/
def pushBit (r : Nat) (b : Bool) : Nat :=
  let top := decide (128 ≤ r) != b
  ((2 * r) % 256) ^^^ (if top then 7 else 0)
def crcSerial (bs : List Byte) : Nat :=
  (bs.flatMap fun x => (List.range 8).map fun i => x.getLsbD (7 - i)).foldl pushBit 0

end Sys2Proof.Claims

/-- The function by which every frame is checked is the bit-serial CRC of polynomial x^8 + x^2 + x + 1 from 0x00, bits
most significant first, with no reflection and no final XOR. A MSPI frame whose CRC_H is another value sets CRC_ERR in
its own status byte (R285), a frame of the MET port keeps it for the status byte of the next frame (R222), and a frame
with this value sets it in neither; the last byte of the response of a MSPI read is this function of its words and
status. -/
def Obligations.FramesCarryTheCrcOfR284 : Prop :=
  (∀ bs : List Byte, (crc8 bs).toNat = crcSerial bs) ∧
  (∀ (s : State) (addr : BitVec 24) (cnt : BitVec 5) (crc : Byte), s.top.porstLow = false →
    Goes (exec (.mspiRead addr cnt ⟨crc, none⟩) s) fun t => ∃ ws st, ReadAnswer t ws st ∧ ws.length = cnt.toNat + 1 ∧
      st.getLsbD 1 = decide (crcSerial (hostBytes (32 + cnt.toNat) addr []) ≠ crc.toNat)) ∧
  (∀ (s : State) (addr : BitVec 24) (v : Word) (crc : Byte), s.top.porstLow = false →
    Goes (exec (.mspiWrite addr [v] crc) s) fun t => ∃ st, WriteAnswer t st ∧
      st.getLsbD 1 = decide (crcSerial (hostBytes 64 addr [v]) ≠ crc.toNat)) ∧
  ∀ (s : State) (addr : BitVec 24) (v : Word) (crc : Byte), s.met.running = true → s.met.crcErr = false →
    Goes (exec (.metWrite addr [v] crc) s) fun t =>
      t.met.crcErr = decide (crcSerial (hostBytes 2 addr [v]) ≠ crc.toNat)

/-- With the right CRC and an aligned address, a READ answers the words that its reads return, at one address or upward,
and one whose select rises after n words makes the first n reads alone; a WRITE writes its words in order, at one
address or upward; STATUS answers OVERCLK, RDONLY and PSTATE. Status bits PREV_ERR and END tell a discarded frame
before and a burst past the map. An undefined OP sets BADCMD, and so does an unaligned address, with no access. A
wrong CRC makes no access, answers zero words and counts. An aborted frame counts in MSPI_FRAME_ERR, clears the
holding tag and sets PREV_ERR; overclocking sets OVERCLK and PREV_ERR. That an undefined OP is answered as a
write-form frame is the model's choice (log 60). -/
def Obligations.MspiFramesAccessAndAnswer : Prop :=
  (∀ (s : State) (addr : BitVec 24) (cnt : BitVec 5) (crc : Byte) (inc : Bool),
    mspiWhole s (if inc then 96 + cnt.toNat else 32 + cnt.toNat) addr [] crc = true → addr.toNat % 4 = 0 →
    let as := (List.range (cnt.toNat + 1)).map fun i => if inc then addr.toNat + 4 * i else addr.toNat
    Goes (exec (if inc then .mspiReadInc addr cnt ⟨crc, none⟩ else .mspiRead addr cnt ⟨crc, none⟩) s) fun t =>
      ∃ ws st, ReadAnswer t ws st ∧ ws = (s.mspiBegin.mspiReads as).1 ∧ ws.length = cnt.toNat + 1 ∧ (t.reader 4).data = ws.getLastD 0 ∧
        st.getLsbD 1 = false ∧ st.getLsbD 7 = false ∧ st.getLsbD 6 = s.spim.prevErr ∧ t.spim.prevErr = false ∧
        st.getLsbD 4 = (inc && decide (0xFFFFFC < addr.toNat + 4 * cnt.toNat)) ∧
        st.getLsbD 0 = !(st.getLsbD 2 || st.getLsbD 3 || st.getLsbD 4 || st.getLsbD 5)) ∧
  (∀ (s : State) (addr : BitVec 24) (cnt : BitVec 5) (crc : Byte) (inc : Bool) (n : Nat),
    mspiWhole s (if inc then 96 + cnt.toNat else 32 + cnt.toNat) addr [] crc = true → addr.toNat % 4 = 0 → n ≤ cnt.toNat + 1 →
    let q := s.mspiBegin.mspiReads ((List.range n).map fun i => if inc then addr.toNat + 4 * i else addr.toNat)
    Goes (exec (if inc then .mspiReadInc addr cnt ⟨crc, some n⟩ else .mspiRead addr cnt ⟨crc, some n⟩) s) fun t =>
      t.spim.response = (0 : Byte) :: q.1.flatMap wordMsb ∧ t = { q.2 with readers := t.readers, spim := t.spim }) ∧
  (∀ (s : State) (addr : BitVec 24) (v w : Word) (crc : Byte) (inc : Bool),
    mspiWhole s (if inc then 129 else 65) addr [v, w] crc = true → addr.toNat % 4 = 0 → addr.toNat < 0xFFFFFC →
    let s' := (s.mspiBegin.writeWord .mspi addr.toNat v).writeWord .mspi (if inc then addr.toNat + 4 else addr.toNat) w
    Goes (exec (if inc then .mspiWriteInc addr [v, w] crc else .mspiWrite addr [v, w] crc) s) fun t =>
      (∃ st, WriteAnswer t st ∧ st.getLsbD 1 = false ∧ st.getLsbD 4 = false ∧ st.getLsbD 7 = false ∧
        st.getLsbD 3 = s'.spim.fDenied ∧ st.getLsbD 2 = s'.spim.fUnmapped ∧ st.getLsbD 5 = s'.spim.fOffline) ∧
      t = { s' with spim := { s'.spim with
        response := t.spim.response, prevErr := false, fUnmapped := false, fDenied := false, fOffline := false } }) ∧
  (∀ (s : State) (crc : Byte), mspiWhole s 160 0 [] crc = true →
    Goes (exec (.mspiStatusFrame 0 0 ⟨crc, none⟩) s) fun t => ∃ st, ReadAnswer t
      [if (s.reader 4).tag = some 0x7000 then (s.reader 4).hold
        else flag s.spim.overclk 31 ||| flag s.spim.rdonly 30 ||| wd s.pwr.pstate.code] st ∧ st.getLsbD 1 = false) ∧
  (∀ (s : State) (addr : BitVec 24) (cnt : BitVec 5) (crc : Byte), s.top.porstLow = false →
    crc8 (hostBytes (32 + cnt.toNat) addr []) ≠ crc →
    Goes (exec (.mspiRead addr cnt ⟨crc, none⟩) s) fun t => t = { s with spim := t.spim } ∧ t.spim.crcErr = s.spim.crcErr.add 1 ∧
      ∃ st, ReadAnswer t (List.replicate (cnt.toNat + 1) 0) st ∧ st.getLsbD 1 = true ∧ st.getLsbD 0 = false) ∧
  (∀ (s : State) (cmd : Byte) (addr : BitVec 24) (data : List Word) (crc : Byte),
    mspiWhole s cmd.toNat addr data crc = true → cmd.toNat / 32 ∈ [0, 6, 7] →
    Goes (exec (.mspiUndefinedOp cmd addr data crc) s) fun t => t = { s with spim := t.spim } ∧
      ∃ st, WriteAnswer t st ∧ st.getLsbD 7 = true ∧ st.getLsbD 0 = false) ∧
  (∀ (s : State) (addr : BitVec 24) (v : Word) (crc : Byte), mspiWhole s 64 addr [v] crc = true → addr.toNat % 4 ≠ 0 →
    Goes (exec (.mspiWrite addr [v] crc) s) fun t => t = { s with spim := t.spim } ∧
      ∃ st, WriteAnswer t st ∧ st.getLsbD 7 = true ∧ st.getLsbD 0 = false) ∧
  (∀ s : State, s.top.porstLow = false →
    exec .mspiFrameAbort s = .next { s with
      spim := { s.spim with frameErr := s.spim.frameErr.add 1, prevErr := true }
      readers := tmod {} s.readers 4 fun h => { h with tag := none, prodLo := [], rdLo := [] } }) ∧
  ∀ s : State, s.top.porstLow = false →
    exec .mspiOverclock s = .next { s with spim := { s.spim with overclk := true, prevErr := true } }

/-- A SPIM_SEND enters the queue as a host frame of the present tick, or, with 8 frames queued or the safe list being
sent, sets QFULL_SEEN and ERR with QFULL and leaves the queue. An idle port takes the front of the queue, which holds
the safe list while that is sent: the select falls at least 16 ticks after a frame was queued and once the port is
idle, or after a flash read burst in progress as it was queued; its words, CAPTURE and times are taken as they stand,
and the delays are kept. A frame ends at the tick that its words set, or that its cut set; one that ends complete with
CAPTURE stores the units received, right-aligned, with number, source and select-fall tick; another stores nothing.
The port is idle 32 ticks later. -/
def Obligations.PspiFramesQueueAndCapture : Prop :=
  (∀ (s : State) (w : Who) (v : Word), s.takesWrite w 0x7040 = true →
    Goes (exec (.spimSend w v) s) fun t => t = { s with spim := t.spim } ∧
      if s.spim.safeOn = true ∨ 8 ≤ s.spim.queue.length then
        t.spim = { s.spim with qfullSeen := true, err := true, errCode := 1 }
      else t.spim = { s.spim with queue := t.spim.queue } ∧ t.spim.queue.length = s.spim.queue.length + 1 ∧
        (∀ q ∈ s.spim.queue, q ∈ t.spim.queue) ∧
        { frame := fld v 0 6, src := 0, tick := s.now, rank := if w = .mspi then 65 else 64 } ∈ t.spim.queue) ∧
  (∀ (s : State) (q : PspiReq) (r : List PspiReq), s.spim.cur = none → s.spim.queue = q :: r → quietClock s = true →
    Goes (exec .pspiFrameStart s) fun t => t.spim.cur = some q ∧ t.spim.queue = r ∧ t.spim.curStart = t.now ∧
      t.now = max s.now (s.spim.fallTick q) ∧
      (s.spim.flashFrom = none → s.spim.fallTick q = max s.spim.idleFrom (q.tick + 16)) ∧
      (∀ f, s.spim.flashFrom = some f → q.tick ≤ f → s.spim.fallTick q = max s.spim.idleFrom (q.tick + 16)) ∧
      t.spim.sent = s.spim.sending q.frame ∧ t.spim.curEnd = t.now + s.spim.frameTicks q.frame ∧
      t.spim.curCap = bit (s.spim.word q.frame 0) 16 ∧ t.spim.curCut = false ∧
      t.spim.qdLast = t.now - (q.tick + 16) ∧ t.spim.qdMax = max s.spim.qdMax (t.now - (q.tick + 16))) ∧
  ∀ (s : State) (q : PspiReq) (rx : List Word), s.spim.cur = some q → s.spim.sent.length ≤ rx.length →
    Goes (exec (.pspiFrameEnd rx) s) fun t => t.spim.cur = none ∧ t.spim.idleFrom = t.now + 32 ∧
      t.spim.queue = s.spim.queue ∧ t.spim.safeOn = (s.spim.safeOn && !s.spim.queue.isEmpty) ∧
      (quietClock s = true → t.now = max s.now s.spim.curEnd) ∧
      if s.spim.curCut = false ∧ s.spim.curCap = true then
        t.spim.rxFrame = q.frame ∧ t.spim.rxSrc = q.src ∧ t.spim.rxTick = s.spim.curStart ∧
        ∀ u, u < s.spim.sent.length →
          tget 0 t.spim.rx u = wd ((rx.getD u 0).toNat % 2 ^ (s.spim.sent.getD u (0, 0)).1)
      else t.spim.rx = s.spim.rx ∧ t.spim.rxFrame = s.spim.rxFrame

namespace Sys2Proof.Claims

/-- What an offset o does, with the local time that an armed step sets (R305 to R308): the step, the servo, or a refusal. -/
def Judged (s t : State) (o target : Int) : Prop :=
  t.time.ofsLast = o ∧
  if s.time.stepArm = true then t.time.stepArm = false ∧ t.time.quality = 2 ∧ t.time.refcnt = 0 ∧ t.time.integ = 0 ∧
    (t.local : Int) = target % ((2 ^ 48 * secUnits : Nat) : Int)
  else t.local = s.local ∧
    if o.natAbs ≤ s.time.jumpLim.toNat * 2 ^ 48 then
      t.time.refcnt = 0 ∧ t.time.lastAccept = s.mono ∧ 2 ≤ t.time.quality ∧ t.time.refuseCnt = s.time.refuseCnt ∧
      -rateMax ≤ t.time.rate ∧ t.time.rate ≤ rateMax
    else t.time.rate = s.time.rate ∧ t.time.refused = true ∧ t.time.quality = 1 ∧ t.time.lastAccept = s.time.lastAccept ∧
      t.time.refuseCnt = s.time.refuseCnt.add 1

end Sys2Proof.Claims

/-- A primary's Announce makes the primary the master in use, one of the backup ends LOST where the backup is the master;
each is kept with its instant and announce interval. A timeout, not before TMO intervals after the master's last
Announce, turns to the backup where there is one, with LOST unless the backup's own Announce is within its TMO. A Sync
of the master in use is stamped and opens an exchange, its Follow_Up supplies t1, its Delay_Resp t4, and the later of
the two closes the exchange with the offset of R304, half the difference of the two differences. A message from
another source than the master changes nothing. The choice of the master and the keeping of both Announces are the
model's reading (log 101). -/
def Obligations.PtpMastersAndExchanges : Prop :=
  (∀ (s : State) (id : PtpId) (k : Fin 16), s.fromPri id = true →
    Goes (exec (.announce ⟨id, k⟩) s) fun t => t.time.master = false ∧ t.time.lost = false ∧
      t.time.priAnn = some (s.mono, k.val) ∧ t.time.bakAnn = s.time.bakAnn ∧ t = { s with time := t.time, ports := t.ports }) ∧
  (∀ (s : State) (id : PtpId) (k : Fin 16), s.fromPri id = false → s.fromBak id = true →
    Goes (exec (.announce ⟨id, k⟩) s) fun t => t.time.master = s.time.master ∧ t.time.bakAnn = some (s.mono, k.val) ∧
      t.time.priAnn = s.time.priAnn ∧ t.time.lost = (s.time.lost && !s.time.master)) ∧
  (∀ (s : State) (id : PtpId) (k : Fin 16), s.fromPri id = false → s.fromBak id = false →
    exec (.announce ⟨id, k⟩) s = .next s) ∧
  (∀ s : State, Goes (exec .announceTimeout s) fun t =>
    t.time.master = (s.time.bakId != 0 || s.time.bakPort != 0) ∧
    t.time.lost = !(!s.time.master && match s.time.annLimit s.time.bakAnn with
      | some u => decide (t.mono < u)
      | none => false) ∧
    ∀ u, s.time.annLimit (if s.time.master then s.time.bakAnn else s.time.priAnn) = some u → quietClock s = true →
      u ≤ t.mono) ∧
  (∀ (s : State) (id : PtpId) (origin : Option Int) (corr : Int) (k : Fin 9) (n : Nat),
    exec (.ptpSync id origin corr k n) s = .next (if s.time.src = 0 ∧ s.fromMaster id = true then s.modTime fun t => { t with
      syncCode := k.val
      exch := some { t1 := origin, t2 := ((s.local / 2 ^ 48 : Nat) : Int), corr1 := corr, id := id,
                     t3 := (((s.local + n * s.time.perTick) / 2 ^ 48 : Nat) : Int) } } else s)) ∧
  (∀ (s : State) (id : PtpId) (origin corr : Int) (x : Exchange), s.time.exch = some x → x.resp = none →
    Goes (exec (.followUp id origin corr) s) fun t => UpToAgreement (
      if s.time.src = 0 ∧ s.fromMaster id = true ∧ x.id = id ∧ x.t1 = none then
        s.modTime fun t => { t with exch := some { x with t1 := some origin, corr1 := x.corr1 + corr } } else s) t) ∧
  (∀ (s : State) (id : PtpId) (t4 corr : Int) (x : Exchange), s.time.exch = some x → x.t1 = none →
    Goes (exec (.delayResp id t4 corr) s) fun t => UpToAgreement (
      if s.time.src = 0 ∧ s.fromMaster id = true ∧ x.id = id ∧ x.resp = none then
        s.modTime fun t => { t with exch := some { x with resp := some (t4, corr) } } else s) t) ∧
  (∀ (s : State) (id : PtpId) (t4 corr t1 : Int) (x : Exchange), s.time.exch = some x → x.t1 = some t1 → x.resp = none →
    s.time.src = 0 → s.fromMaster id = true → x.id = id →
    Goes (exec (.delayResp id t4 corr) s) fun t => t.time.exch = none ∧
      2 * t.time.ofsLast = ((x.t2 - t1 - x.corr1) - (t4 - corr - x.t3)) * 2 ^ 48) ∧
  ∀ (s : State) (id : PtpId) (origin c1 t4 corr : Int) (x : Exchange), s.time.exch = some x → x.t1 = none →
    x.resp = some (t4, corr) → s.time.src = 0 → s.fromMaster id = true → x.id = id →
    Goes (exec (.followUp id origin c1) s) fun t => t.time.exch = none ∧
      2 * t.time.ofsLast = ((x.t2 - origin - (x.corr1 + c1)) - (t4 - corr - x.t3)) * 2 ^ 48

/-- An offset, of a PTP exchange or of a PPS edge against the whole second, sets local time at once when a step is armed;
within JUMP_LIM it leaves local time, is accepted and gives a RATE within 200 ppm; beyond it, it is refused and
counted, leaves local time and RATE, and quality falls to holdover. A write of TIME_CTRL with a legal source arms the
step and sets source and PPS_OUT, and one with the reserved source does nothing. After 4 sync intervals without an
accepted offset quality is holdover. -/
def Obligations.OffsetsStepServoOrRefuse : Prop :=
  (∀ (s : State) (id : PtpId) (t4 corr t1 : Int) (x : Exchange), s.time.exch = some x → x.t1 = some t1 → x.resp = none →
    s.time.src = 0 → s.fromMaster id = true → x.id = id →
    let o := ((x.t2 - t1 - x.corr1) - (t4 - corr - x.t3)) * 2 ^ 47
    Goes (exec (.delayResp id t4 corr) s) fun t => Judged s t o (s.local - o)) ∧
  (∀ s : State, s.time.src = 1 → s.guyArmed 7 = true → s.powered = true →
    let f := s.local % secUnits
    Goes (exec .ppsEdge s) fun t =>
      Judged s t (if 2 * f ≤ secUnits then (f : Int) else (f : Int) - secUnits) ((s.time.ppsSec.toNat * secUnits : Nat) : Int)) ∧
  (∀ (s : State) (w : Who) (v : Word), s.takesWrite w 0x4020 = true →
    exec (.stepArm w v) s = .next (if fld v 0 2 = 3 then s else s.modTime fun t => { t with
      stepArm := t.stepArm || bit v 31, ppsOut := bit v 2, src := v.extractLsb' 0 2,
      exch := if fld v 0 2 = 0 then t.exch else none })) ∧
  ∀ s : State, 2 ≤ s.time.quality →
    Goes (exec .offsetAgeHoldover s) fun t => t.time.quality = 1 ∧ t.time.rate = s.time.rate ∧
      (quietClock s = true ∨ s.clk.pllLock = false → s.time.lastAccept + 4 * announceUnits s.time.interval ≤ t.mono)

/-- An enabled PPS pulse begins on the first tick at or after the next whole local second and ends 800 ticks later. An
armed comparator fires on the first tick on which local time has reached its target, or, where it was armed at or past
it, LATE on the tick after its arming; it is then disarmed, FIRED and LATE as it was, and with ACTION 0 its job ends
OK with the firing tick, DETAIL bit 15 telling LATE. -/
def Obligations.PulsesAndComparatorsKeepTheirTime : Prop :=
  (∀ s : State, s.time.ppsOut = true → s.time.ppsLow = false → quietClock s = true →
    Goes (exec .ppsOut s) fun t => t.time.ppsLow = true ∧ t.time.ppsEnd = t.now + 800 ∧
      t.now = s.now + ceilDiv (ceilDiv s.local secUnits * secUnits - s.local) (max 1 s.time.perTick)) ∧
  (∀ s : State, s.time.ppsLow = true →
    Goes (exec .ppsOutEnd s) fun t => t.time.ppsLow = false ∧ (quietClock s = true → t.now = max s.now s.time.ppsEnd)) ∧
  ∀ (s : State) (i : Fin 16), (s.cmp i).armed = true → quietClock s = true →
    let c := s.cmp i
    Goes (exec (.comparatorFire i) s) fun t =>
      t.cmp i = { c with armed := false, armLate := false, fired := true, late := c.armLate } ∧
      (∀ k : Nat, k ≠ i.val → t.cmp k = s.cmp k) ∧
      t.now = (if c.armLate = true then max s.now (c.armTick + 1)
        else s.now + ceilDiv (timeUnits c.sec c.ns - s.local) (max 1 s.time.perTick)) ∧
      ∀ j, c.action = 0 → s.job c.port c.tag = some j →
        EndedWith t c.port c.tag 0 (if c.armLate = true then 0x8000 else 0) t.now

/-- GUY[0] is pulled by a participating device whose digital die is up exactly while the agreement is not satisfied, but
for the time from a timeout to the next start that waits (log 100): satisfied means that a start waits, and hash,
stepping, quality and, where required, the named gangs and the fault latch agree. The strobe falls on tick 0 of an
epoch, at least 16 ticks after GUY[0] went high, for 64 ticks. Its edge arms the waiting start's gangs for the third
epoch after, ends the job OK and ends the waiting. A timeout refuses the oldest waiting start with the device's
reason, releases GUY[0] and clears the descriptor. A fault edge on GUY[6] that the device does not drive sets G6_SEEN,
reads low and puts every channel in safe state where its reaction says so, or changes nothing else with no reaction. -/
def Obligations.GuylineAgreesAndStrobes : Prop :=
  (∀ s : State, Goes (exec .guyAgreement s) fun t => t = { s with guy := t.guy } ∧
    t.guy = { s.guy with g0HighSince := t.guy.g0HighSince } ∧
    t.guy.g0HighSince = (if s.agreed = true ∧ s.guyIn 0 = true then some (s.guy.g0HighSince.getD s.now) else none) ∧
    (t.pulls 0 = false ↔ s.pwr.dieUp = false ∨ s.guy.g0Part = false ∨ s.guy.released0 = true ∨ s.guy.waiting ≠ [] ∧ s.guy.descWritten = true ∧
      s.guy.descHash = s.img.actHash ∧ s.guy.descStepping.toNat = Config.stepping ∧ s.guy.qmin.toNat ≤ s.time.quality ∧
      (s.guy.req = true → s.startBench s.waitingGangs = none ∧ s.flt.firstValid = false))) ∧
  (∀ s : State, s.agreed = true → s.guy.strobeMaster = true → s.guy.g0Part = true → s.guy.pull1 = false →
    s.guy.level.getLsbD 0 = true → quietClock s = true →
    Goes (exec .guyStrobe s) fun t => t.guy.pull1 = true ∧ t.guy.strobeEnd = t.now + 64 ∧ t.grid % 256 = 0 ∧
      s.guy.g0HighSince.getD s.now + 16 ≤ t.now) ∧
  (∀ s : State, s.guy.pull1 = true →
    Goes (exec .guyStrobeEnd s) fun t => t.guy.pull1 = false ∧ (quietClock s = true → t.now = max s.now s.guy.strobeEnd)) ∧
  (∀ (s : State) (p : Nat) (tag : BitVec 16) (k : Nat) (j : Job), s.guy.waiting = [(p, tag, k)] → s.job p tag = some j →
    let gs := (bitsSet 64 (j.w64 2)).filter fun g => (tfind s.gangs g).isSome
    s.agreeUpdate.guyIn 0 = true → s.guy.g0Part = true → s.guyArmed 1 = true → s.clk.pllLock = true →
    s.startBad gs = none → (∀ g ∈ gs, s.gangBenches g ≠ []) →
    Goes (exec .guyStrobeEdge s) fun t => t.guy.waiting = [] ∧ t.guy.state = 2 ∧ t.guy.descWritten = false ∧
      t.guy.startEpoch = BitVec.ofNat 64 (s.clk.epoch + 3) ∧ EndedWith t p tag 0 0 (s.clk.epoch + 3) ∧
      ∀ g ∈ gs, t.gangState g = .armed ∧ (t.gang g).startEpoch = s.clk.epoch + 3) ∧
  (∀ (s : State) (p : Nat) (tag : BitVec 16) (k : Nat) (r : List (Nat × BitVec 16 × Nat)) (j : Job),
    s.guy.waiting = (p, tag, k) :: r → s.job p tag = some j →
    Goes (exec .guyAgreeTimeout s) fun t => t.guy.waiting = r ∧ t.guy.state = 3 ∧ t.pulls 0 = false ∧
      t.guy.descWritten = false ∧ t.guy.descHash = 0 ∧ t.guy.descStepping = 0 ∧ t.guy.qmin = 0 ∧ t.guy.req = false ∧
      t.guy.reason ≠ 0 ∧ EndedWith t p tag 0xA t.guy.reason 0 ∧
      (quietClock s = true → k + 800 * s.guy.agreeTmo.toNat ≤ t.now)) ∧
  ∀ s : State, s.guy.g6Driving = false → s.guyArmed 6 = true →
    Goes (exec .guyFault s) fun t => t.guy.g6Seen = true ∧
      t.guyIn 6 = false ∧
      (s.guy.g6React = 0 → t = { s with guy := { s.guy with g6Seen := true, level := t.guy.level }, ports := t.ports }) ∧
      (s.guy.g6React = 2 → ∀ b l, b < 64 → l < 8 → (t.chan b l).inSafe = true)

/-- A lost reference leaves the PLL unlocked with REF_LOSS_SEEN; an unlock sets UNLOCK_SEEN and, in READY or RUN, raises
source 1,328, which takes the device to FAULT where it is fatal. A lock with a good reference on a powered device
makes the next tick an epoch's first, with the epoch number and the tick number as they were, and a source that could
not be sampled until then is detected. An enabled output with a legal divider rises at the first phase 0 of its
divider from then on; a disabled one stops no earlier than the command. A divider below 4 or not above the coarse
delay, or a change of it while enabled, is refused with its code (log 55). That sources wait to be sampled while the
core clock is stopped is the model's reading (log 73). -/
def Obligations.ClocksLoseAndGainLock : Prop :=
  (∀ s : State, s.clk.refOk = true →
    Goes (exec .refclkLoss s) fun t => t.clk.refOk = false ∧ t.clk.refLossSeen = true ∧ t.clk.pllLock = false) ∧
  (∀ s : State, exec .refclkReturn s = .next (s.modClk fun c => { c with refOk := true })) ∧
  (∀ s : State, s.clk.pllLock = true →
    Goes (exec .pllUnlock s) fun t => t.clk = { s.clk with
        pllLock := false, unlockSeen := true, acqN := s.clk.lockN, acqWin := s.clk.lockWin } ∧
      (s.ready = false → UpToAgreement { s with clk := t.clk } t) ∧
      (s.ready = true → tfind s.flt.active 1328 = none → tget false t.flt.seen 1328 = true ∧
        (s.srcClass 1328 = 2 → t.pwr.pstate = .fault ∧ t.flt.faultN = true))) ∧
  (∀ s : State, s.clk.pllLock = false → s.clk.refOk = true → s.flt.leaving = false →
    (s.powered = true ∨ s.pwr.pstate = .transit ∧ s.pwr.dieUp = true) →
    (s.flt.unsampled = [] → Goes (exec .pllLock s) fun t =>
      t.clk = { s.clk with pllLock := true, ran := true, phase := 0, holdN := 0, holdErr := 0 } ∧
      t.guy = { s.guy with syncDone := false, g0HighSince := t.guy.g0HighSince } ∧ t.local = s.local) ∧
    ∀ src r, s.flt.unsampled = [(src, r)] → tfind s.flt.active src = none →
      Goes (exec .pllLock s) fun t => tget false t.flt.seen src = true ∧ t.local = s.local) ∧
  (∀ (s : State) (w : Who) (i : Fin 8) (v : Word), s.takesWrite w (0x1040 + 8 * i) = true → bit v 31 = true →
    let o : ClkOut := tget {} s.clk.outs i
    o.en = false →
    Goes (exec (.clkoutEnable w i v) s) fun t => t = { s with clk := t.clk } ∧
      let q : ClkOut := tget {} t.clk.outs i
      if 4 ≤ fld v 0 10 ∧ o.coarse.toNat < fld v 0 10 then q.en = true ∧ q.running = true ∧ q.div = v.extractLsb' 0 10 ∧ q.phase0 = o.phase0 ∧
        (q.riseAt - 8 * o.phase0) % fld v 0 10 = 0 ∧ 8 * s.now ≤ q.riseAt ∧
        q.riseAt < max (8 * s.now) (8 * o.phase0) + fld v 0 10
      else t.clk = { s.clk with err := true, errCode := 1 }) ∧
  ∀ (s : State) (w : Who) (i : Fin 8) (v : Word), s.takesWrite w (0x1040 + 8 * i) = true → bit v 31 = false →
    let o : ClkOut := tget {} s.clk.outs i
    o.en = true →
    Goes (exec (.clkoutDisable w i v) s) fun t => t = { s with clk := t.clk } ∧
      let q : ClkOut := tget {} t.clk.outs i
      if fld v 0 10 ≠ o.div.toNat then t.clk = { s.clk with err := true, errCode := 2 }
      else if 4 ≤ fld v 0 10 ∧ o.coarse.toNat < fld v 0 10 then q.en = false ∧ q.running = false ∧ q.div = o.div ∧ 8 * s.now ≤ q.stopAt ∧
        q.stopAt ≤ max (8 * s.now) (8 * o.phase0) + o.div.toNat
      else t.clk = { s.clk with err := true, errCode := 1 }

/-- The next epoch begins on the next tick number with phase 0. A SYNC edge that is to be applied sets phase 0 and
restarts every divider when it falls on phase 0 or no gang is busy, and otherwise sets SYNC_SLIP and counts; one that
is only checked changes nothing on phase 0. WAKE makes a gated bench wake in READY and RUN, and sets error 1
elsewhere; the lock of its DLL ends the waking and gives it back the state it held, with the device in RUN. GATE gates
a bench whose gang is not busy, its lanes in safe state, and sets error 2 on a busy one. A DLL that loses lock on an
awake bench shows it and raises its source, at once or, with the core clock stopped, once that runs (log 73, the
model's reading). -/
def Obligations.EpochsSyncAndBenchClocks : Prop :=
  (∀ s : State, quietClock s = true →
    Goes (exec .epoch s) fun t => t.clk.phase = 0 ∧ t.now = s.now + (256 - s.clk.phase % 256) ∧
      t.grid = s.grid + (256 - s.clk.phase % 256)) ∧
  (∀ s : State, s.clk.pllLock = true → (s.guy.syncSe = true → s.top.inArmed.getLsbD 12 = true) →
    let apply := s.guy.syncEvery || !s.guy.syncDone
    Goes (exec .syncEdge s) fun t =>
      if apply = true ∧ (s.clk.phase = 0 ∨ s.anyBusy = false) then
        t = { s with clk := t.clk, time := { s.time with runs := t.time.runs },
                     guy := { s.guy with syncDone := true, syncSeen := true } } ∧ t.clk.phase = 0 ∧
        t.clk.epoch = s.clk.epoch ∧ t.now = s.now ∧ ∀ i, i < 8 → (tget {} t.clk.outs i : ClkOut).phase0 = s.now
      else if s.clk.phase = 0 then t = s
      else t = { s with guy := { s.guy with syncSlip := true, slipCnt := s.guy.slipCnt.add 1 } }) ∧
  (∀ (s : State) (b : BenchIx), (s.bench b).waking = true →
    Goes (exec (.dllLock b) s) fun t => t.bench b = { s.bench b with
        waking := false, awake := true, dllLock := true, seq := (t.bench b).seq } ∧
      (t.bench b).seq.state = (if (s.bench b).seq.state = .gated then (s.bench b).seq.heldState else (s.bench b).seq.state) ∧
      (∀ c : Nat, c ≠ b.val → t.bench c = s.bench c) ∧ (s.ready = true → t.pwr.pstate = .run)) ∧
  (∀ (s : State) (b : BenchIx), (s.bench b).awake = true → (s.bench b).dllLock = true →
    Goes (exec (.dllUnlock b) s) fun t => (t.bench b).dllLock = false ∧
      (s.coreOff = false → tfind s.flt.active (1026 + 3 * b) = none → tget false t.flt.seen (1026 + 3 * b) = true) ∧
      (s.coreOff = true → (tfind t.flt.unsampled (1026 + 3 * b)).isSome = true)) ∧
  (∀ (s : State) (w : Who) (b : BenchIx) (v : Word), s.takesWrite w (benchAt b 0x3C0) = true →
    bit v 0 = true → bit v 1 = false → bit v 31 = false → (s.bench b).awake = false → (s.bench b).waking = false →
    Goes (exec (.benchWake w b v) s) (UpToAgreement (s.modBench b fun x =>
      if s.ready = true then { x with waking := true, acqN := s.clk.lockN, acqWin := s.clk.lockWin } else { x with pwrErr := true, pwrCode := 1 }))) ∧
  ∀ (s : State) (w : Who) (b : BenchIx) (v : Word), s.takesWrite w (benchAt b 0x3C0) = true →
    bit v 0 = false → bit v 1 = true → bit v 31 = false →
    Goes (exec (.benchGate w b v) s) fun t =>
      if ((s.gangOf b).map s.gangState).any SeqState.busy = true then
        UpToAgreement (s.modBench b fun x => { x with pwrErr := true, pwrCode := 2 }) t
      else (t.bench b).awake = false ∧ (t.bench b).seq.state = .gated ∧ (∀ l, l < 8 → (t.chan b l).inSafe = true) ∧
        ∀ c : Nat, c ≠ b.val → t.bench c = s.bench c

/-- An undefined target is refused with code 1; one below READY is refused with code 2 in RUN or while the device is not
at rest, and otherwise begins the transition. MAX_CLR sets the maxima to the present temperatures. A transition ends
in AON with the die off, in IDLE, or, with the PLL locked, in READY or RUN with HBM out of self-refresh, a per-boot
key and FAULT_N released, or, where no key can be drawn, in AON with RNG_FAIL. An armed wake timer fires once, when
local time has come. An update with 16 finite powers steps each state of each region by the model of R336; a region at
125 C or above trips, with none hot and none tripping nothing else happens. That MAX_CLR sets the maxima to the
present temperatures is log 51 and the rounding of the update log 20 (the model's choices). -/
def Obligations.PowerStatesAndHeat : Prop :=
  (∀ (s : State) (w : Who) (v : Word), s.takesWrite w 0x2000 = true → bit v 31 = false →
    let q := fld v 0 3
    Goes (exec (.pwrTarget w v) s) fun t =>
      if q = 0 ∨ 4 ≤ q then t = s.modPwr fun p => { p with err := true, errCode := 1 }
      else if (s.pwr.pstate = .run ∨ s.pwr.pstate = .ready ∧ s.atRest = false) ∧ q < 3 then
        t = s.modPwr fun p => { p with err := true, errCode := 2 }
      else t.pwr.target = q ∧ t.pwr.err = s.pwr.err ∧
        (s.pwr.pstate = .ready → q < 3 → t.pwr.pstate = .transit ∧ t.top.cwRun = false) ∧
        (s.pwr.pstate = .idle → q ≠ 2 → t.pwr.pstate = .transit)) ∧
  (∀ (s : State) (w : Who) (v : Word), s.takesWrite w 0x2000 = true → bit v 31 = true → fld v 0 3 = 3 →
    Goes (exec (.maxClr w v) s) fun t => t.pwr.tjMax = s.pwr.tj ∧ t.pwr.tj = s.pwr.tj) ∧
  (∀ (s : State) (keyOk : Bool), s.pwr.pstate = .transit →
    Goes (exec (.powerTransitionDone keyOk) s) fun t =>
      (s.pwr.target = 1 → t.pwr.pstate = .aon ∧ t.pwr.dieUp = false ∧ t.pwr.selfRefresh = true) ∧
      (s.pwr.target = 2 → t.pwr.pstate = .idle ∧ t.pwr.dieUp = true) ∧
      (s.pwr.target = 3 → s.clk.pllLock = false → t.pwr.pstate = .transit ∧ t.pwr.dieUp = true) ∧
      (s.pwr.target = 3 → s.clk.pllLock = true → keyOk = true ∨ s.sec.hbmKey ≠ none →
        (t.pwr.pstate = .ready ∨ t.pwr.pstate = .run) ∧ t.pwr.dieUp = true ∧ t.pwr.selfRefresh = false ∧
        t.flt.faultN = false ∧ t.sec.hbmKey ≠ none) ∧
      (s.pwr.target = 3 → s.clk.pllLock = true → keyOk = false → s.sec.hbmKey = none → tfind s.flt.active 1342 = none →
        s.srcClass 1342 = 2 → t.pwr.pstate = .aon ∧ t.flt.faultN = true ∧ t.sec.rngFail = true ∧ t.sec.hbmKey = none)) ∧
  (∀ s : State, s.pwr.wakeArm = true →
    Goes (exec .wakeTimerFire s) fun t => t.pwr.wakeArm = false ∧ t.pwr.fired = true ∧
      (quietClock s = true → t.now = s.now +
        ceilDiv (timeUnits s.pwr.wakeSec s.pwr.wakeNs - s.local) (max 1 s.time.perTick))) ∧
  ∀ (s : State) (ps : List Word), s.pwr.pstate ≠ .off → ps.length = 16 → ps.all f32Finite = true →
    let u := s.modPwr fun p => p.update ps
    Goes (exec (.thermalUpdate ps) s) fun t => t.pwr.tj = u.pwr.tj ∧ t.pwr.tjMax = u.pwr.tjMax ∧
      (∀ k i, k < 16 → i ∈ [1, 2, 3] → tget 0 t.pwr.x (4 * k + i) =
        thermalStep s.pwr.cls k i (heating s.pwr.cls k ps) (tget 0 s.pwr.x (4 * k + i))) ∧
      (∀ k, k < 16 → f32Int 125 ≤ u.pwr.temps.getD k 0 → k ∈ t.pwr.hot ∧ (s.pwr.hot = [] → t.pwr.tripValid = true)) ∧
      ((∀ k, k < 16 → u.pwr.temps.getD k 0 < f32Int 125) → s.pwr.hot = [] → UpToAgreement u t)

namespace Sys2Proof.Claims

/-- A bench is gated with its lanes in safe state (R333, R349). -/
def GatedSafe (t : State) (b : Nat) : Prop :=
  (t.bench b).awake = false ∧ (t.bench b).seq.state = .gated ∧ ∀ l, l < 8 → (t.chan b l).inSafe = true

/-- No source of class FT is asserted. -/
def noFatal (s : State) : Bool := s.flt.active.all fun x => s.effClass x.1 != 2

/-- The collector samples a source: the core clock runs, or the source is one of the always-on ones (R343). -/
def sampled (s : State) (src : Nat) : Bool := !s.coreOff || decide (1336 ≤ src)

/-- The first-error latch after a detection of class c of a source (R345). -/
def Latched (s t : State) (src c : Nat) (rail : Bool) : Prop :=
  t.flt.firstValid = true ∧
  if s.flt.firstValid = false ∨ s.flt.firstClass < c ∨
      s.sameCycle = true ∧ s.flt.firstClass = c ∧ src < s.flt.firstSrc then
    t.flt.firstSrc = src ∧ t.flt.firstClass = c ∧ t.flt.firstRail = rail ∧ t.flt.firstTick = BitVec.ofNat 64 s.now ∧
    t.flt.firstSec = BitVec.ofNat 48 s.time.sec ∧ t.flt.firstNs = BitVec.ofNat 30 s.timeNs ∧
    t.flt.overflow = (s.flt.overflow || s.flt.firstValid)
  else t.flt.firstSrc = s.flt.firstSrc ∧ t.flt.firstClass = s.flt.firstClass ∧ t.flt.firstTick = s.flt.firstTick ∧
    t.flt.overflow = true

/-- What a warm reset keeps (R359), and that the rest of the digital die is at reset. -/
def WarmKept (s t : State) : Prop :=
  t.hbm = s.hbm ∧ t.hbmPast = s.hbmPast ∧ t.sec.hbmKey = s.sec.hbmKey ∧ t.local = s.local ∧ t.pwr.x = s.pwr.x ∧ t.pwr.tcool = s.pwr.tcool ∧ t.pwr.cls = s.pwr.cls ∧
  t.pwr.wakeArm = s.pwr.wakeArm ∧ t.pwr.wakeSec = s.pwr.wakeSec ∧ t.pwr.wakeNs = s.pwr.wakeNs ∧ t.top.cwMask = s.top.cwMask ∧
  t.flt.firstValid = s.flt.firstValid ∧ t.flt.firstSrc = s.flt.firstSrc ∧ t.flt.cntCe = s.flt.cntCe ∧
  t.flt.cntUc = s.flt.cntUc ∧ t.flt.cntFt = s.flt.cntFt ∧ t.flt.recFt = s.flt.recFt ∧ t.img.active = s.img.active ∧
  t.img.activeSlot = s.img.activeSlot ∧ t.met.store = s.met.store ∧
  (∀ b l, (t.chan b l).dsk = (s.chan b l).dsk ∧ (t.chan b l).tdr = (s.chan b l).tdr) ∧
  t.pwr.pstate = .aon ∧ t.time.stepArm = true ∧ t.clk = s.clk.stopped ∧ t.gangs = [] ∧ t.sites = [] ∧ t.img.stg = .empty ∧
  (∀ p, (t.port p).en = false ∧ (t.port p).jobs = []) ∧ ∀ b, (t.bench b).awake = false

/-- Bits shifted through the boundary register (R383): as many come out, the last cells hold them, and the register keeps its
length. -/
def Scanned (t : State) (bs : List Bool) : Prop :=
  t.top.boundary.length = boundaryCells ∧ t.top.tdo.length = bs.length ∧
  (bs.length ≤ boundaryCells → t.top.boundary.drop (boundaryCells - bs.length) = bs)

/-- Every digital pin that can be driven shows f of its group and its cell of the boundary register, and every other one is not driven. -/
def DrivesPins (t : State) (f : PinGroup → Bool → TestDrive) : Prop :=
  ∀ i, i < boundaryCells → t.top.testDrive i =
    if (pinGroup pinGroups i).drives then f (pinGroup pinGroups i) (t.top.boundary.getD i false) else .floating

/-- The level of a cell, but that an open drain is not driven high. -/
def cellLevel (g : PinGroup) (high : Bool) : TestDrive := if g.openDrain && high then .floating else .level high

end Sys2Proof.Claims

/-- The detection of a source that is not asserted asserts it and marks it seen, counts in its class, and latches it, or
sets OVERFLOW under a latch of its class or above, but for a lower-numbered source on the latch's own cycle; while the
core clock is stopped a source below 1,336 only waits to be sampled. A CE detection changes no part of the device but
the fault collector and the ports, and for 1,333 the time unit. A UC detection takes its NORMAL sites to SAFE with
every channel of theirs in safe state. An FT detection takes a device past its first READY to FAULT with FAULT_N,
every bench gated and every lane safe. A rail fault is at least UC. A deasserted source, once sampled, is active no
more, and a SAFE site that nothing else holds begins its quiet period at the later of now and the end of the reaction.
The wait to be sampled is log 73, the end of a reaction logs 23 and 96 (the model's readings). -/
def Obligations.FaultsLatchAndReact : Prop :=
  (∀ (s : State) (src : SrcIx), s.top.porstLow = false → src.val ≠ 1342 → sampled s src = true → tfind s.flt.active src = none →
    let c := s.srcClass src
    Goes (exec (.faultDetect src) s) fun t => tfind t.flt.active src = some false ∧ tget false t.flt.seen src = true ∧
      Latched s t src c false ∧
      t.flt.cntCe = (if c = 0 then s.flt.cntCe.add 1 else s.flt.cntCe) ∧
      t.flt.cntUc = (if c = 1 then s.flt.cntUc.add 1 else s.flt.cntUc) ∧
      t.flt.cntFt = (if 2 ≤ c then s.flt.cntFt.add 1 else s.flt.cntFt) ∧
      (c = 0 → UpToAgreement { s with flt := t.flt, ports := t.ports, time := t.time } t ∧ (src.val ≠ 1333 → t.time = s.time)) ∧
      (c = 1 → s.pwr.pstate ≠ .fault → ∀ i ∈ s.srcSites src, (s.site i).state = .normal →
        (t.site i).state = .safe ∧ ∀ k ∈ (s.site i).chans, (t.chan k.1 k.2).inSafe = true) ∧
      (2 ≤ c → s.pwr.pstate ≠ .fault → s.pwr.pstate ≠ .aon → s.top.wasReady = true →
        t.pwr.pstate = .fault ∧ t.flt.faultN = true ∧ t.pwr.selfRefresh = true ∧ ∀ b, b < 64 → GatedSafe t b)) ∧
  (∀ (s : State) (src : SrcIx) (rail : Bool), s.top.porstLow = false → sampled s src = false →
    Goes (exec (if rail then .railFault src else .faultDetect src) s) fun t =>
      t.flt = { s.flt with
        dropped := s.flt.dropped.erase src,
        unsampled := tput s.flt.unsampled src (rail || tget false s.flt.unsampled src) }) ∧
  (∀ (s : State) (src : SrcIx), s.top.porstLow = false → sampled s src = true → tfind s.flt.active src = none →
    Goes (exec (.railFault src) s) fun t => tfind t.flt.active src = some true ∧ tget false t.flt.seen src = true ∧
      Latched s t src (max 1 (s.srcClass src)) true) ∧
  ∀ (s : State) (src : SrcIx), src.val < 1344 → (tfind s.flt.active src).isSome = true →
    Goes (exec (.faultSourceDeassert src) s) fun t =>
      if sampled s src = true then t.flt.active = tdel s.flt.active src ∧
        ∀ i ∈ s.srcSites src, (s.site i).state = .safe → (s.sourceOff src).siteHeld i = false →
          (t.site i).state = .quiet ∧ (t.site i).quietEnd = max s.mono (s.site i).reactEnd + 32000 * (s.site i).quietUs
      else t.flt.active = s.flt.active ∧ src.val ∈ t.flt.dropped ∧ t.sites = s.sites

/-- The end of a site's quiet period restarts it and counts, or latches it at the limit; a channel without a site is
released; in FAULT no site's recovery moves (log 39, the model's choice). A re-initialised site has its benches awake
with their DLLs locked, and is NORMAL unless it resumes in a running gang, when it waits for the epoch of R24, and is
then NORMAL with event input 1 asserted. The device leaves FAULT, counting, once nothing fatal is asserted and the
quiet period has passed since, with FAULT_N released, or waits for the PLL's lock with it unlocked, or is latched at
the limit. CLR_FIRST clears the latch and OVERFLOW, REC_CLR the count; SITE_RECOVER makes a LATCHED site NORMAL, and
FT_RECOVER a latched device follow its exit again; both set ERR in any other state. -/
def Obligations.SitesAndDeviceRecover : Prop :=
  (∀ (s : State) (i : SiteIx), s.pwr.pstate = .fault →
    Goes (exec (.quietEnd (.site i)) s) (UpToAgreement s) ∧ Goes (exec (.reinitDone i) s) (UpToAgreement s) ∧
      Goes (exec (.siteRelease i) s) (UpToAgreement s)) ∧
  (∀ (s : State) (i : SiteIx), (s.site i).state = .quiet → s.pwr.pstate ≠ .fault → quietClock s = true ∨ s.clk.pllLock = false →
    Goes (exec (.quietEnd (.site i)) s) fun t => (s.site i).quietEnd ≤ t.mono ∧
      if (s.site i).recCnt < s.flt.limUc then (t.site i).state = .restart ∧ (t.site i).recCnt = (s.site i).recCnt + 1
      else (t.site i).state = .latched ∧ (t.site i).recCnt = (s.site i).recCnt) ∧
  (∀ (s : State) (c : Fin 512), ((s.chan (c / 8) (c % 8)).quietFrom).isSome = true →
    Goes (exec (.quietEnd (.chan c)) s) fun t => (t.chan (c / 8) (c % 8)).faultHold = false ∧
      (t.chan (c / 8) (c % 8)).quietFrom = none) ∧
  (∀ (s : State) (i : SiteIx), (s.site i).state = .restart → (s.site i).releaseAt = none → s.pwr.pstate ≠ .fault →
    Goes (exec (.reinitDone i) s) fun t =>
      (∀ b ∈ (s.site i).cfg.benches, (s.bench b).dllLock = false → (t.bench b).awake = true ∧ (t.bench b).dllLock = true) ∧
      ((s.site i).cfg.resume = false → (t.site i).state = .normal) ∧
      ((s.site i).cfg.resume = true → (s.gangState (s.site i).cfg.gang).running = true →
        (t.site i).state = .restart ∧ (t.site i).releaseAt = some s.nextCut)) ∧
  (∀ (s : State) (i : SiteIx) (e : Nat), (s.site i).state = .restart → (s.site i).releaseAt = some e →
    s.pwr.pstate ≠ .fault → quietClock s = true →
    Goes (exec (.siteRelease i) s) fun t => (t.site i).state = .normal ∧ (t.site i).releaseAt = none ∧ 256 * e ≤ t.grid ∧
      ((s.gangState (s.site i).cfg.gang).running = true →
        (t.bench (s.leadOf (s.lead (s.site i).cfg.gang))).seq.evtPend.getLsbD 1 = true)) ∧
  (∀ s : State, s.pwr.pstate = .fault → s.ftHeld = false → s.flt.leaving = false → s.flt.ftLatched = false →
    (quietClock s = true ∨ s.clk.pllLock = false) →
    Goes (exec .ftExit s) fun t => s.flt.ftFrom + 32000 * s.flt.quietFt ≤ t.mono ∧
      if s.flt.recFt < s.flt.limFt then t.flt.recFt = s.flt.recFt + 1 ∧
        (s.clk.pllLock = false → t.flt.leaving = true) ∧
        (s.clk.pllLock = true → s.top.wasReady = true → s.pwr.target = 3 →
          (t.pwr.pstate = .ready ∨ t.pwr.pstate = .run) ∧ t.flt.faultN = false ∧ t.guy.g6Driving = false)
      else t.flt.ftLatched = true ∧ t.pwr.pstate = .fault ∧ t.flt.recFt = s.flt.recFt) ∧
  (∀ (s : State) (w : Who) (v : Word), s.takesWrite w 0x3004 = true → fld v 28 4 = 8 →
    Goes (exec (.clrFirst w v) s) (UpToAgreement (s.modFlt fun f => { f with
      siteSel := v.extractLsb' 0 7, firstValid := false, overflow := false }))) ∧
  (∀ (s : State) (w : Who) (v : Word), s.takesWrite w 0x3004 = true → fld v 28 4 = 2 →
    Goes (exec (.recClr w v) s) (UpToAgreement (s.modFlt fun f => { f with siteSel := v.extractLsb' 0 7, recFt := 0 }))) ∧
  (∀ (s : State) (w : Who) (v : Word), s.takesWrite w 0x3004 = true → fld v 28 4 = 1 →
    Goes (exec (.siteRecover w v) s) (UpToAgreement (if (s.site (fld v 0 7)).state = .latched then
      (s.modFlt fun f => { f with siteSel := v.extractLsb' 0 7 }).modSite (fld v 0 7) fun x => { x with state := .normal }
      else s.modFlt fun f => { f with err := true }))) ∧
  ∀ (s : State) (w : Who) (v : Word), s.takesWrite w 0x3004 = true → fld v 28 4 = 4 →
    Goes (exec (.ftRecover w v) s) fun t =>
      if s.flt.ftLatched = false then UpToAgreement (s.modFlt fun f => { f with err := true }) t
      else t.flt.ftLatched = false ∧ t.flt.err = s.flt.err ∧
        (s.ftHeld = true → t.pwr.pstate = s.pwr.pstate) ∧
        (s.ftHeld = false → s.clk.pllLock = false → t.flt.leaving = true) ∧
        (s.ftHeld = false → s.clk.pllLock = true → s.top.wasReady = true → t.flt.faultN = false)

/-- A cold reset leaves OFF with FAULT_N asserted (log 73), no image, no key and nothing of the digital die, and the
metrology die's store and seal record; VAON below its limit does the same. Start-up loads fuses, and where RESET_N is
low still leaves the device in warm reset with FAULT_N as it was, else releases FAULT_N and ends a calibration session
(log 121); loaded, they lead towards READY; failed, they keep the device in AON with source 1,342. A warm reset, by
pin or by TOP_RESET, keeps what R359 lists, with the cooling class (log 53), and sets its cause; its end leads towards
READY, with no fatal source asserted, and ends a calibration session. A partition reset gates the partition's benches,
empties their staging, makes its sites NORMAL and disarms its comparators. The boot copies from flash where MAGIC is
there and ends with NO_IMAGE where it is not. -/
def Obligations.ResetsAndStartUp : Prop :=
  (∀ s : State, Goes (exec .coldReset s) fun t => t.top.porstLow = true ∧ t.top.causeCold = true ∧ t.flt.faultN = true ∧
    t.flt.firstValid = false ∧ t.pwr.pstate = .off ∧ t.top.resetLow = s.top.resetPin ∧ t.img.activeValid = false ∧ t.img.active = none ∧ t.sec.hbmKey = none ∧
    t.gangs = [] ∧ t.benches = [] ∧ t.met.store = s.met.store ∧ t.met.sealCnt = s.met.sealCnt ∧
    t.met.sealKey = s.met.sealKey) ∧
  (∀ s : State, exec (.vaonExcursion true) s = exec .coldReset s) ∧
  (∀ s : State, s.top.porstLow = false → tfind s.flt.active 1341 = none →
    Goes (exec (.vaonExcursion false) s) fun t => tget false t.flt.seen 1341 = true) ∧
  (∀ s : State, s.top.porstLow = true →
    Goes (exec .coldStartup s) fun t => t.top.porstLow = false ∧ t.top.phase = .fuses ∧ t.pwr.pstate = .aon ∧
      t.top.resetLow = s.top.resetLow ∧
      if s.top.resetLow = true then t.flt.faultN = s.flt.faultN ∧ t.top.causeWarm = true ∧ t.met = s.met
      else t.flt.faultN = false ∧ t.met.sealState = if s.met.sealState = .session then .sealed else s.met.sealState) ∧
  (∀ s : State, s.top.phase = .fuses → s.pwr.pstate = .aon →
    (s.dieReset = false → s.top.jtagHold = false → noFatal s = true → Goes (exec (.fuseLoadDone true) s) fun t => t.top.phase = .up ∧ t.pwr.target = 3 ∧
      t.pwr.pstate = .transit) ∧
    (tfind s.flt.active 1342 = none → s.srcClass 1342 = 2 → s.top.wasReady = false →
      Goes (exec (.fuseLoadDone false) s) fun t => t.top.phase = .stuck ∧ t.pwr.pstate = .aon ∧ t.flt.faultN = true ∧
        Latched s t 1342 2 false ∧ (s.flt.firstValid = false → t.flt.firstSub = 1))) ∧
  (∀ s : State, s.top.porstLow = false →
    Goes (exec .warmReset s) fun t => WarmKept s t ∧ t.top.resetLow = true ∧ t.top.causeWarm = true ∧
      t.top.causeSoft = s.top.causeSoft) ∧
  (∀ (s : State) (w : Who) (v : Word), s.takesWrite w 0x80 = true → s.top.porstLow = false → bit v 0 = true →
    Goes (exec (.warmWrite w v) s) fun t => WarmKept s t ∧ t.top.resetLow = true ∧ t.top.causeSoft = true ∧
      t.top.causeWarm = s.top.causeWarm) ∧
  (∀ s : State, s.top.resetLow = true → s.top.porstLow = false → s.top.jtagHold = false → s.top.phase = .up →
    s.pwr.pstate = .aon → noFatal s = true →
    Goes (exec .warmStartup s) fun t => t.top.resetLow = false ∧ t.pwr.pstate = .transit ∧ t.pwr.target = 3 ∧
      t.met.sealState ≠ .session) ∧
  (∀ (s : State) (w : Who) (v : Word), s.takesWrite w 0x88 = true →
    Goes (exec (.partitionReset w v) s) fun t =>
      (∀ b q, b < 64 → q < 4 → bit v q = true → s.benchPart b = some q →
        (t.bench b).awake = false ∧ (t.bench b).seq.state = .gated ∧ (t.bench b).stgItems = []) ∧
      (∀ i ∈ s.siteIxs, s.sitePart i < 4 → bit v (s.sitePart i) = true →
        (t.site i).state = .normal ∧ (t.site i).recCnt = 0) ∧
      ∀ i, i < 16 → (s.cmp i).part < 4 → bit v (s.cmp i).part = true → (t.cmp i).armed = false) ∧
  ∀ (s : State) (h : Option (Word × Word)), s.top.bootDue = true → s.ready = true → s.img.stg = .empty →
    Goes (exec (.boot h) s) fun t => t.top.bootDue = false ∧
      if h.map (·.1) = some 0x47524A46 then t.top.booting = true ∧ t.top.bootCode = 1 ∧ t.img.stg = .loading ∧
        t.img.copyFlash = true ∧ t.img.copyAddr = 0
      else t.top.bootCode = 3 ∧ t.img = s.img

/-- Contact Watch starts with every channel UNSETTLED. Each scan then takes as value V of every channel c the mean of its
64 samples, where their codes are given, and gives it the class of V: OPEN below −1.2 V, CONTACT from −0.9 V to −0.2
V, SHORT above −0.1 V, and UNSETTLED for any other value; each bound is the binary32 nearest its decimal value. -/
def Obligations.ContactWatchClassesOfR371 : Prop :=
  (∀ s : State, s.top.cwRun = false → s.cwBegin.top.cwRun = true → ∀ c, tget 0 s.cwBegin.top.cwClass c = 0) ∧
  ∀ (s : State) (codes : List (List (BitVec 18))), s.top.cwRun = true → s.clk.pllLock = true →
    Goes (exec (.cwScan codes) s) fun t => t.top.cwScanned = true ∧ ∀ c, c < 512 →
      ((codes.getD c []).length = 64 → tget 0 t.top.cwV c = s.adcResult (c / 8) (c % 8) (codes.getD c [])) ∧
      let v := f32Num (tget 0 t.top.cwV c)
      (f32Finite (tget 0 t.top.cwV c) = true →
        tget 0 t.top.cwClass c = if v < f32Dec (-12) 10 then 1 else if f32Dec (-9) 10 ≤ v ∧ v ≤ f32Dec (-2) 10 then 2
          else if f32Dec (-1) 10 < v then 3 else 0)

/-- A write of SEC_CTRL with PROGRAM or REVOKE is refused exactly when a case of R377 holds: BOTH, SLOT, BUSY, or STATE. A
refused write sets ERR and an ERR_CODE whose case holds, and changes nothing but those and, for PROGRAM, the
provisioning registers that R375 clears. -/
def Obligations.KeyCommandsRefusedByR377 : Prop :=
  ∀ (s : State) (w : Who) (v : Word) (rev : Bool), s.takesWrite w 0x9004 = true →
    (if rev then bit v 30 else bit v 31) = true →
    let k := s.keySlot (fld v 0 2)
    let state := (bit v 31 = true ∧ (k.state ≠ 0 ∨ s.img.activeValid = true)) ∨ (bit v 30 = true ∧ k.state ≠ 1)
    let slot := fld v 0 2 = 0 ∨ 2 < fld v 0 2
    let busy := s.sec.busy = true ∨ s.img.stg = .loading ∨ s.img.stg = .checking ∨ s.img.stg = .committing
    let both := bit v 31 = true ∧ bit v 30 = true
    Goes (exec (if rev then .keyRevoke w v else .keyProgram w v) s) fun t =>
      (state ∨ slot ∨ busy ∨ both → t.sec.err = true ∧
        (t.sec.errCode = 1 ∧ state ∨ t.sec.errCode = 2 ∧ slot ∨ t.sec.errCode = 3 ∧ busy ∨ t.sec.errCode = 4 ∧ both) ∧
        t = { s with sec := { s.sec with
          err := true, errCode := t.sec.errCode, provHash := t.sec.provHash, provKey := t.sec.provKey } } ∧
        (bit v 31 = false → t.sec.provHash = s.sec.provHash ∧ t.sec.provKey = s.sec.provKey)) ∧
      (¬(state ∨ slot ∨ busy ∨ both) → t.sec.err = s.sec.err ∧ t.sec.errCode = s.sec.errCode)

/-- The first valid level of an input arms it and is read, without pulsing anything, and leaves the other inputs; a low
level of CAL_EN acts as CAL_EN_LOW. An accepted PROGRAM makes the block BUSY and leaves every slot; its end makes
exactly that slot ACTIVE with KHASH and IKEY as provisioned and clears the provisioning registers; that they are taken
at the end is the model's choice (log 69). An accepted REVOKE makes exactly its slot REVOKED. -/
def Obligations.InputsArmAndKeySlotsChange : Prop :=
  (∀ (s : State) (i : Fin 4) (high : Bool), s.pwr.dieUp = true → s.top.inArmed.getLsbD i = false →
    Goes (exec (.inputArm (.trigIn i) high) s) fun t => t = { s with top := t.top } ∧ t.top.trigLevel.getLsbD i = high ∧
      ∀ k, k < 13 → t.top.inArmed.getLsbD k = (s.top.inArmed.getLsbD k || decide (k = i.val))) ∧
  (∀ (s : State) (i : Fin 8) (high : Bool), s.pwr.dieUp = true →
    Goes (exec (.inputArm (.guy i) high) s) fun t => t = { s with top := t.top, guy := t.guy } ∧
      t.guy.level.getLsbD i = high ∧
      ∀ k, k < 13 → t.top.inArmed.getLsbD k = (s.top.inArmed.getLsbD k || decide (k = 4 + i.val))) ∧
  (∀ (s : State) (high : Bool), s.pwr.dieUp = true →
    Goes (exec (.inputArm .sync high) s) fun t => t = { s with top := t.top } ∧
      ∀ k, k < 13 → t.top.inArmed.getLsbD k = (s.top.inArmed.getLsbD k || decide (k = 12))) ∧
  (∀ s : State, s.met.running = true →
    exec (.inputArm .calEn true) s = .next (s.modMet fun m => { m with calEn := true, calEnArmed := true }) ∧
    exec (.inputArm .calEn false) s = exec .calEnLow s) ∧
  (∀ (s : State) (w : Who) (v : Word), s.takesWrite w 0x9004 = true → bit v 31 = true → bit v 30 = false →
    s.secCode true false (fld v 0 2) = 0 →
    exec (.keyProgram w v) s = .next (s.modSec fun x => { x with
      slotSel := v.extractLsb' 0 2, busy := true, busySlot := fld v 0 2 })) ∧
  (∀ s : State, s.sec.busy = true →
    Goes (exec .keyProgramDone s) fun t => UpToAgreement { s with sec := t.sec } t ∧ t.sec.busy = false ∧ t.sec.provHash = [] ∧
      t.sec.provKey = [] ∧
      (tget {} t.sec.slots s.sec.busySlot : KeySlot).state = 1 ∧
      (∀ i, i < 12 → (tget {} t.sec.slots s.sec.busySlot : KeySlot).khash.extractLsb' (32 * i) 32 = tget 0 s.sec.provHash i) ∧
      (∀ i, i < 8 → (tget {} t.sec.slots s.sec.busySlot : KeySlot).ikey.extractLsb' (32 * i) 32 = tget 0 s.sec.provKey i) ∧
      ∀ k, k ≠ s.sec.busySlot → (tget {} t.sec.slots k : KeySlot) = tget {} s.sec.slots k) ∧
  ∀ (s : State) (w : Who) (v : Word), s.takesWrite w 0x9004 = true → bit v 31 = false → bit v 30 = true →
    s.secCode false true (fld v 0 2) = 0 →
    Goes (exec (.keyRevoke w v) s) fun t => t = { s with sec := t.sec } ∧
      (tget {} t.sec.slots (fld v 0 2) : KeySlot) = { (tget {} s.sec.slots (fld v 0 2) : KeySlot) with state := 2 } ∧
      ∀ k, k ≠ fld v 0 2 → (tget {} t.sec.slots k : KeySlot) = tget {} s.sec.slots k

/-- With no held reset, BYPASS shifts out one 0, IDCODE its 32 bits, least significant first, and SAMPLE/PRELOAD as many
bits as it takes into the register of one cell per digital pin (log 119), and they change nothing else of the device.
The five instructions of R384 hold the device in warm reset, keeping what R359 lists, and drive the pins from the
cells, by pulses and trains on the AC pins, or float them; TRST_N ends it and the device goes towards READY.
RMA_UNLOCK puts out a nonce; with a signature of it and DEV_SN by the vendor's key it makes every bit of slots 1 and 2
one, erases the per-boot key, under which what HBM held stays unreadable (log 3), opens test access and leaves the
seal record; with another it opens nothing; cut by a supply loss it opens nothing, each slot is destroyed or as
before, and it is pending (log 70). -/
def Obligations.BoundaryScanAndUnlock : Prop :=
  (∀ s : State, s.top.jtagHold = false →
    exec .jtagBypass s = .next (s.modTop fun t => { t with jtag := .bypass, tdo := [false] }) ∧
    (Goes (exec .jtagIdcode s) fun t => t = { s with top := { s.top with jtag := .idcode, tdo := t.top.tdo } } ∧
      t.top.tdo.length = 32 ∧ ∀ i, i < 32 →
        t.top.tdo.getD i false = (if Config.stepping = 0 then 0x0051286B else 0x1051286B).testBit i) ∧
    ∀ bs : List Bool, Goes (exec (.jtagSamplePreload bs) s) fun t => Scanned t bs ∧
      t = { s with top := { s.top with jtag := .sample, boundary := t.top.boundary, tdo := t.top.tdo }, freeCtr := t.freeCtr }) ∧
  (∀ (s : State) (bs : List Bool), s.top.jtagHold = false → s.top.porstLow = false →
    (Goes (exec (.jtagExtest bs) s) fun t => WarmKept s t ∧ t.top.jtagHold = true ∧ Scanned t bs ∧ DrivesPins t cellLevel) ∧
    (Goes (exec (.jtagExtestPulse bs) s) fun t => WarmKept s t ∧ t.top.jtagHold = true ∧ Scanned t bs ∧
      DrivesPins t fun g h => if g.ac then .pulse h else cellLevel g h) ∧
    (Goes (exec (.jtagExtestTrain bs) s) fun t => WarmKept s t ∧ t.top.jtagHold = true ∧ Scanned t bs ∧
      DrivesPins t fun g h => if g.ac then .train h else cellLevel g h) ∧
    (Goes (exec .jtagClamp s) fun t => WarmKept s t ∧ t.top.jtagHold = true ∧ t.top.tdo = [false] ∧
      t.top.boundary = s.top.boundary ∧ DrivesPins t cellLevel) ∧
    (Goes (exec .jtagHighz s) fun t => WarmKept s t ∧ t.top.jtagHold = true ∧ t.top.tdo = [false] ∧
      DrivesPins t fun _ _ => .floating)) ∧
  (∀ s : State, s.top.jtagHold = true → s.top.porstLow = false → s.top.resetLow = false → s.top.phase = .up →
    s.pwr.pstate = .aon → noFatal s = true →
    Goes (exec .jtagTrst s) fun t => t.top.jtagHold = false ∧ t.top.jtag = .idcode ∧ t.pwr.pstate = .transit ∧
      t.pwr.target = 3) ∧
  ∀ (s : State) (r sg : BitVec 384) (lost : Bool),
    Goes (exec (.rmaUnlock ⟨r, sg⟩ lost) s) fun t => t.met.store = s.met.store ∧ t.met.sealCnt = s.met.sealCnt ∧
      t.met.sealKey = s.met.sealKey ∧ (tget {} t.sec.slots 0 : KeySlot) = tget {} s.sec.slots 0 ∧
      t.sec.nonce = s.rmaNonce ∧ t.top.tdo = (List.range 128).map s.rmaNonce.getLsbD ∧
      if s.rmaSigned r sg = true then
        (if lost = true then t.sec.testOpen = s.sec.testOpen ∧ t.sec.rma = s.sec.rma ∧ t.sec.rmaPending = true ∧
          ∀ k ∈ [1, 2], (tget {} t.sec.slots k : KeySlot) = destroyed ∨ (tget {} t.sec.slots k : KeySlot) = tget {} s.sec.slots k
        else t.sec.testOpen = true ∧ t.sec.rma = true ∧ t.sec.hbmKey = none ∧ t.hbm = [] ∧
          (s.top.jtagHold = false → s.sec.hbmKey ≠ none →
            t.hbmPast = { key := s.keyNow, cells := s.hbm, regions := s.regions } :: s.hbmPast) ∧
          ∀ k ∈ [1, 2], (tget {} t.sec.slots k : KeySlot) = destroyed ∧ (t.sec.busy = true → t.sec.busySlot ≠ k))
      else t.sec.testOpen = s.sec.testOpen ∧ t.sec.rma = s.sec.rma ∧ t.sec.hbmKey = s.sec.hbmKey

/-- A read of TIME_NS returns the nanoseconds and holds seconds, fraction and device tick number of that tick for its
reader alone. In whatever state follows in which the reader's holding registers are as that read left them, its reads
of TIME_SEC_LO, TIME_SEC_HI, TIME_FRAC, TIME_TICK_LO and TIME_TICK_HI return the copies. The holding tag of R391 is
taken to name no word of the time group. -/
def Obligations.TimeSnapshotOfR301 : Prop :=
  ∀ (s : State) (w : Who), s.canReach w = true →
    let r := whoIx w
    (∀ k, k < 6 → (s.reader r).tag ≠ some (0x4000 + 4 * k)) →
    Goes (exec (.timeSnapshotRead w) s) fun t => t = { s with readers := t.readers } ∧
      (∀ q : Nat, q ≠ r → t.reader q = s.reader q) ∧ (t.reader r).data = wd s.timeNs ∧
      ∀ u : State, u.canReach w = true → u.reader r = t.reader r →
        (Goes (exec (.counterSnapshotRead w 0x4004) u) fun v => (v.reader r).data = wordOf s.time.sec 0) ∧
        (Goes (exec (.counterSnapshotRead w 0x4008) u) fun v => (v.reader r).data = wd (s.time.sec / 2 ^ 32 % 2 ^ 16)) ∧
        (Goes (exec (.counterSnapshotRead w 0x400C) u) fun v => (v.reader r).data = wd s.timeFrac) ∧
        (Goes (exec (.counterSnapshotRead w 0x4010) u) fun v => (v.reader r).data = wordOf s.now 0) ∧
        (Goes (exec (.counterSnapshotRead w 0x4014) u) fun v => (v.reader r).data = wordOf s.now 1)

/-- A write that the rights allow has the effect of its register, for any register of the map: so PWR_WAKE_NS,
TIME_PRI_PORT and a port's own window select take their writable bits alone, and a read-only identification word
changes nothing. One from a writer that reaches nothing is lost; a port's write with other byte enables only sets
BADSIZE, one to nothing implemented, outside the MON block, only UNMAPPED, one to a register of an absent port
nothing, and one the rights do not allow only PART_VIOL with its address. A read outside a commit returns what the
register's own read gives, or 0 with UNMAPPED for a port where nothing is implemented. A read of a pair's low word
that changes nothing itself returns it and holds the high word, which its reader's next read of the high word returns.
The store window shows the selected bench's micro and nano words and the mirror's words, without changing anything but
the reader's registers, and a port nothing of another partition's bench. -/
def Obligations.RegistersReadAndWrite : Prop :=
  (∀ (s : State) (w : Who) (a : BitVec 24) (v : Word), s.takesWrite w a.toNat = true →
    exec (.registerWrite w a v true) s = .next (s.regWrite w a.toNat v)) ∧
  (∀ (s : State) (w : Who) (a : BitVec 24) (v : Word) (full : Bool), s.canReach w = false →
    exec (.registerWrite w a v full) s = .next s) ∧
  (∀ (s : State) (w : Who) (v : Word), s.takesWrite w 0x2010 = true →
    exec (.registerWrite w 0x2010 v true) s = .next (s.modPwr fun p => { p with wakeNs := v.extractLsb' 0 30 })) ∧
  (∀ (s : State) (w : Who) (v : Word), s.takesWrite w 0x4050 = true →
    exec (.registerWrite w 0x4050 v true) s = .next (s.modTime fun t => { t with priPort := v.extractLsb' 0 16 })) ∧
  (∀ (s : State) (p : PortIx) (a : BitVec 24) (v : Word), a.toNat = 0xA0 + 4 * p.val → s.takesWrite (.port p) a.toNat = true →
    exec (.registerWrite (.port p) a v true) s = .next (s.modReader p fun h => { h with winSel := fld v 0 6 })) ∧
  (∀ (s : State) (w : Who) (v : Word), s.takesWrite w 0 = true → exec (.registerWrite w 0 v true) s = .next s) ∧
  (∀ (s : State) (p : PortIx) (a : BitVec 24) (v : Word), s.canReach (.port p) = true →
    Goes (exec (.registerWrite (.port p) a v false) s) fun t => t = { s with ports := t.ports } ∧
      (t.port p).badSize = true ∧ (t.port p).partViol = (s.port p).partViol) ∧
  (∀ (s : State) (p : PortIx) (a : BitVec 24) (v : Word), s.canReach (.port p) = true → a.toNat < 0xB000 ∨ 0xC000 ≤ a.toNat →
    s.served a.toNat = false ∨ s.implemented (.port p) a.toNat = false →
    Goes (exec (.registerWrite (.port p) a v true) s) fun t => t = { s with ports := t.ports } ∧
      (t.port p).unmapped = true ∧ (t.port p).partViol = (s.port p).partViol) ∧
  (∀ (s : State) (p : PortIx) (a : BitVec 24) (v : Word), s.canReach (.port p) = true → s.served a.toNat = true →
    s.implemented (.port p) a.toNat = true → s.allows (.port p) (s.right a.toNat) = false →
    s.absent a.toNat = false →
    Goes (exec (.registerWrite (.port p) a v true) s) fun t => t = { s with ports := t.ports } ∧
      (t.port p).partViol = true ∧ (t.port p).violAddr = BitVec.ofNat 64 a.toNat) ∧
  (∀ (s : State) (p : PortIx) (a : BitVec 24) (v : Word), s.served a.toNat = true → s.implemented (.port p) a.toNat = true →
    s.absent a.toNat = true → exec (.registerWrite (.port p) a v true) s = .next s) ∧
  (∀ (s t : State) (w : Who) (a : BitVec 24) (v : Word), s.canReach w = true → s.served a.toNat = true →
    s.img.stg ≠ .committing → (s.reader (whoIx w)).tag ≠ some a.toNat → a.toNat ≠ 0x4000 → pairLo a.toNat = false →
    s.regRead w a.toNat = (some v, t) →
    exec (.counterSnapshotRead w a) s = .next (t.modReader (whoIx w) fun h => { h with data := v })) ∧
  (∀ (s : State) (p : PortIx) (a : BitVec 24), s.canReach (.port p) = true → (s.reader p).tag ≠ some a.toNat →
    s.img.stg ≠ .committing → s.served a.toNat = false ∨ s.regRead (.port p) a.toNat = (none, s) →
    Goes (exec (.counterSnapshotRead (.port p) a) s) fun t => t = { s with ports := t.ports, readers := t.readers } ∧
      (t.reader p).data = 0 ∧ (t.port p).unmapped = true) ∧
  (∀ (s : State) (w : Who) (a : BitVec 24) (lo hi : Word), s.canReach w = true → s.served a.toNat = true →
    pairLo a.toNat = true → s.img.stg ≠ .committing → (s.reader (whoIx w)).tag ≠ some a.toNat →
    s.regRead w a.toNat = (some lo, s) → s.regRead w (a.toNat + 4) = (some hi, s) →
    exec (.counterSnapshotRead w a) s = .next (s.modReader (whoIx w) fun h => { h with
      hold := hi, tag := some (a.toNat + 4), data := lo })) ∧
  (∀ (s : State) (w : Who) (a : BitVec 24), s.canReach w = true → s.served a.toNat = true →
    (s.reader (whoIx w)).tag = some a.toNat →
    exec (.counterSnapshotRead w a) s = .next (s.modReader (whoIx w) fun h => { h with data := h.hold })) ∧
  ∀ (s : State) (w : Who) (a : BitVec 24), s.canReach w = true → s.powered = true → s.img.stg ≠ .committing →
    (s.reader (whoIx w)).tag ≠ some a.toNat →
    let b := (s.reader (whoIx w)).winSel
    let own := match w with
      | .mspi => true
      | .port p => !s.img.activeValid || s.benchOwner b == some p.val
    (own = true → ∀ n, n < 65536 →
      (a.toNat = 0x400000 + 8 * n → Goes (exec (.storeWindowRead w a) s) fun t => t = { s with readers := t.readers } ∧
        (t.reader (whoIx w)).data = (tget 0 (s.bench b).micro n : BitVec 48).extractLsb' 0 32) ∧
      (a.toNat = 0x400004 + 8 * n → Goes (exec (.storeWindowRead w a) s) fun t => t = { s with readers := t.readers } ∧
        (t.reader (whoIx w)).data = ((tget 0 (s.bench b).micro n : BitVec 48).extractLsb' 32 16).setWidth 32)) ∧
    (own = true → ∀ n i, n < 16384 → i < 8 → a.toNat = 0x480000 + 32 * n + 4 * i →
      Goes (exec (.storeWindowRead w a) s) fun t => t = { s with readers := t.readers } ∧
        (t.reader (whoIx w)).data = (tget 0 (s.bench b).nano n : BitVec 256).extractLsb' (32 * i) 32) ∧
    (∀ k i, k < 8324 → i < 18 → a.toNat = 0x500000 + 128 * k + 4 * i → s.met.mirrorBad = false →
      Goes (exec (.storeWindowRead w a) s) fun t => t = { s with readers := t.readers } ∧
        (t.reader (whoIx w)).data = s.mirrorWord (32 * k + i)) ∧
    ∀ p, w = .port p → own = false → 0x400000 ≤ a.toNat → a.toNat < 0x500000 → a.toNat % 4 = 0 →
      Goes (exec (.storeWindowRead w a) s) fun t => (t.reader (whoIx w)).data = 0 ∧ (t.port p).partViol = true

/-- Whatever command runs in whatever state, the calibration store of the metrology die and its seal key are as they were,
unless the command is a CLOSE: no reset, no supply loss, no register, frame or job writes them. -/
def Obligations.SealStoreWrittenByCloseOnly : Prop :=
  ∀ (c : Instr) (s t : State), exec c s = .next t →
    (t.met.store = s.met.store ∧ t.met.sealKey = s.met.sealKey) ∨ ∃ addr data crc, c = .closeSession addr data crc
end

