-- ==== Sys2Proof/Laws/Memory.lean ====
section
/-! SUPPORT. The laws of tables and of byte memories: what is read after a write, and that every memory operation keeps the canonical form. -/

namespace Sys2Proof.Machine

/-! ## Tables -/

variable {α : Type}

@[simp] theorem tget_tput_same (d : α) (t : Tab α) (i : Nat) (v : α) : tget d (tput t i v) i = v := by
  induction t with
  | nil => simp [tput, tget]
  | cons p r ih =>
    obtain ⟨k, a⟩ := p
    unfold tput
    split
    · simp [tget]
    · split
      · simp [tget]
      · simp [tget, *]

theorem tget_tput_other (d : α) (t : Tab α) {i j : Nat} (v : α) (h : i ≠ j) : tget d (tput t i v) j = tget d t j := by
  induction t with
  | nil => simp [tput, tget, h]
  | cons p r ih =>
    obtain ⟨k, a⟩ := p
    unfold tput
    split
    · subst k; simp [tget, h]
    · split
      · simp [tget, h]
      · simp [tget, ih]

/-- What a table reads after an entry is written. -/
theorem tget_tput (d : α) (t : Tab α) (i j : Nat) (v : α) : tget d (tput t i v) j = if i = j then v else tget d t j := by
  split
  · subst j; simp
  · exact tget_tput_other d t v ‹_›

@[simp] theorem tget_tmod_same (d : α) (t : Tab α) (i : Nat) (f : α → α) : tget d (tmod d t i f) i = f (tget d t i) := by
  simp [tmod]

theorem tget_tmod_other (d : α) (t : Tab α) {i j : Nat} (f : α → α) (h : i ≠ j) : tget d (tmod d t i f) j = tget d t j :=
  tget_tput_other d t _ h

/-- What a table reads after an entry is changed. -/
theorem tget_tmod (d : α) (t : Tab α) (i j : Nat) (f : α → α) :
    tget d (tmod d t i f) j = if i = j then f (tget d t i) else tget d t j := tget_tput d t i j _

/-! ## Byte memories -/

@[simp] theorem memGet_memPut_same (m : List (Nat × Byte)) (a : Nat) (v : Byte) (h : Memory.wf m = true) :
    memGet (memPut m a v) a = v := by
  induction m with
  | nil => unfold memPut; split <;> simp_all [memGet]
  | cons p r ih =>
    obtain ⟨k, x⟩ := p
    have tail : Memory.wf r = true := by
      cases r with
      | nil => rfl
      | cons q r => obtain ⟨b, w⟩ := q; simp [Memory.wf] at h; exact h.2
    have low (c : Nat) (hc : c ≤ k) : memGet r c = 0 := by
      clear ih
      induction r generalizing k x with
      | nil => rfl
      | cons q r ih =>
        obtain ⟨b, w⟩ := q
        simp only [Memory.wf, Bool.and_eq_true, decide_eq_true_eq] at h
        rw [memGet, if_neg (by omega)]
        cases r with
        | nil => rfl
        | cons q' r' => exact ih b w (by simpa using h.2) (by obtain ⟨b', w'⟩ := q'; simp [Memory.wf] at tail; exact tail.2) (by omega)
    unfold memPut
    split
    · subst k
      split
      · subst v; exact low a (Nat.le_refl a)
      · simp [memGet]
    · split
      · split
        · subst v; rw [memGet, if_neg ‹_›]; exact low a (by omega)
        · simp [memGet]
      · rw [memGet, if_neg ‹_›]; exact ih tail

/-- A write leaves every other address alone. -/
theorem memGet_memPut_other (m : List (Nat × Byte)) {a b : Nat} (v : Byte) (h : a ≠ b) :
    memGet (memPut m a v) b = memGet m b := by
  induction m with
  | nil => unfold memPut; split <;> simp [memGet, h]
  | cons p r ih =>
    obtain ⟨k, x⟩ := p
    unfold memPut
    split
    · subst k; split <;> simp [memGet, h]
    · split
      · split <;> simp [memGet, h]
      · simp [memGet, ih]

/-- A list above an address: the lists that may follow an entry there. -/
def Above (a : Nat) : List (Nat × Byte) → Prop
  | [] => True
  | (b, _) :: _ => a < b

/-- The canonical form, one entry at a time. -/
theorem Memory.wf_cons (a : Nat) (v : Byte) (r : List (Nat × Byte)) :
    Memory.wf ((a, v) :: r) = true ↔ v ≠ 0 ∧ Above a r ∧ Memory.wf r = true := by
  cases r with
  | nil => simp [Memory.wf, Above]
  | cons q r => obtain ⟨b, w⟩ := q; simp [Memory.wf, Above, and_assoc]

/-- An address below the first of a canonical list is below all. -/
theorem Above.lt {a : Nat} {r : List (Nat × Byte)} (h : Above a r) (k : Memory.wf r = true) : ∀ p ∈ r, a < p.1 := by
  induction r generalizing a with
  | nil => simp
  | cons q r ih =>
    obtain ⟨b, w⟩ := q
    obtain ⟨-, hb, hr⟩ := (Memory.wf_cons b w r).1 k
    intro p hp
    rcases List.mem_cons.1 hp with rfl | hp
    · exact h
    · exact Nat.lt_trans h (ih hb hr p hp)

/-- An address below every entry may stand before them. -/
theorem Above.of_lt {a : Nat} {r : List (Nat × Byte)} (h : ∀ p ∈ r, a < p.1) : Above a r := by
  cases r with
  | nil => trivial
  | cons q r => exact h q (by simp)

/-- A filtered memory keeps the canonical form. -/
@[simp] theorem Memory.wf_filter (m : List (Nat × Byte)) (f : Nat × Byte → Bool) (h : Memory.wf m = true) :
    Memory.wf (m.filter f) = true := by
  induction m with
  | nil => rfl
  | cons p r ih =>
    obtain ⟨a, v⟩ := p
    obtain ⟨hv, ha, hr⟩ := (Memory.wf_cons a v r).1 h
    rw [List.filter_cons]
    split
    · exact (Memory.wf_cons _ _ _).2 ⟨hv, Above.of_lt fun q hq => Above.lt ha hr q (List.mem_filter.1 hq).1, ih hr⟩
    · exact ih hr

/-- The entries after a write are old ones or the one written. -/
theorem mem_memPut {m : List (Nat × Byte)} {a : Nat} {v : Byte} : ∀ p ∈ memPut m a v, p ∈ m ∨ p = (a, v) := by
  induction m with
  | nil => unfold memPut; split <;> simp
  | cons q r ih =>
    obtain ⟨k, x⟩ := q
    unfold memPut
    intro p hp
    split at hp
    · split at hp
      · exact .inl (List.mem_cons_of_mem _ hp)
      · rcases List.mem_cons.1 hp with h | h
        · exact .inr h
        · exact .inl (List.mem_cons_of_mem _ h)
    · split at hp
      · split at hp
        · exact .inl hp
        · rcases List.mem_cons.1 hp with h | h
          · exact .inr h
          · exact .inl h
      · rcases List.mem_cons.1 hp with h | h
        · exact .inl (h ▸ List.mem_cons_self)
        · rcases ih p h with h | h
          · exact .inl (List.mem_cons_of_mem _ h)
          · exact .inr h

/-- A write keeps the canonical form. -/
@[simp] theorem Memory.wf_memPut (m : List (Nat × Byte)) (a : Nat) (v : Byte) (h : Memory.wf m = true) :
    Memory.wf (memPut m a v) = true := by
  induction m with
  | nil => unfold memPut; split <;> simp_all [Memory.wf]
  | cons p r ih =>
    obtain ⟨k, x⟩ := p
    obtain ⟨hx, hk, hr⟩ := (Memory.wf_cons k x r).1 h
    unfold memPut
    split
    · subst k
      split
      · exact hr
      · exact (Memory.wf_cons _ _ _).2 ⟨‹_›, hk, hr⟩
    · split
      · split
        · exact h
        · exact (Memory.wf_cons _ _ _).2 ⟨‹_›, ‹a < k›, h⟩
      · refine (Memory.wf_cons _ _ _).2 ⟨hx, Above.of_lt fun q hq => ?_, ih hr⟩
        rcases mem_memPut q hq with hq | rfl
        · exact Above.lt hk hr q hq
        · show k < a; omega

/-- A write of several bytes keeps the canonical form. -/
@[simp] theorem Memory.wf_memPutList (bs : List Byte) (m : List (Nat × Byte)) (a : Nat) (h : Memory.wf m = true) :
    Memory.wf (memPutList m a bs) = true := by
  induction bs generalizing m a with
  | nil => exact h
  | cons v vs ih => exact ih _ _ (Memory.wf_memPut m a v h)

/-- A write of several bytes leaves every address outside them alone. -/
theorem memGet_memPutList_other (bs : List Byte) (m : List (Nat × Byte)) {a b : Nat} (h : b < a ∨ a + bs.length ≤ b) :
    memGet (memPutList m a bs) b = memGet m b := by
  induction bs generalizing m a with
  | nil => rfl
  | cons v vs ih =>
    simp only [List.length_cons] at h
    rw [memPutList, ih _ (by omega), memGet_memPut_other _ _ (by omega)]

/-- A write of several bytes is read back. -/
theorem memGet_memPutList_same (bs : List Byte) (m : List (Nat × Byte)) (a i : Nat) (h : Memory.wf m = true) (k : i < bs.length) :
    memGet (memPutList m a bs) (a + i) = bs[i] := by
  induction bs generalizing m a i with
  | nil => simp at k
  | cons v vs ih =>
    rw [memPutList]
    cases i with
    | zero => rw [Nat.add_zero, memGet_memPutList_other _ _ (by omega)]; simp [h]
    | succ i =>
      rw [show a + (i + 1) = a + 1 + i by omega, ih _ _ _ (Memory.wf_memPut m a v h) (by simpa using k)]
      rfl

end Sys2Proof.Machine
end

