-- ==== Sys2Proof/Laws/Frame.lean ====
section
/-! SUPPORT. What hardly any command touches: the waiting commands, the HBM content, the structure in force, the key slots and the calibration store. One lemma for each operation says that it leaves them alone, so that no proof about a command unfolds the operations it is made of. -/

namespace Sys2Proof.Machine

/-- The parts of the state that only named commands change, but for the HBM content. -/
structure Rest where
  pending : List Instr
  regions : List Region
  partPort : Tab Nat
  enginePart : Tab Nat
  slots : Tab KeySlot
  hbmKey : Option (BitVec 512)
  store : Tab Word
  sealKey : BitVec 256

/-- The parts of the state that only named commands change. -/
structure Kept where
  rest : Rest
  hbm : List Host.Cell
  hbmPast : List HbmPast

/-- What a change of the structure in force or of the key slots leaves. -/
structure Fixed where
  pending : List Instr
  store : Tab Word
  sealKey : BitVec 256
  hbm : List Host.Cell
  hbmPast : List HbmPast

/-- The part of it that a change of the structure in force or of the key slots leaves. -/
def Kept.fixed (k : Kept) : Fixed :=
  { pending := k.rest.pending, store := k.rest.store, sealKey := k.rest.sealKey, hbm := k.hbm, hbmPast := k.hbmPast }

/-- What a change of both the structure in force and the HBM content leaves. -/
structure Still where
  pending : List Instr
  store : Tab Word
  sealKey : BitVec 256

/-- The part of it that a change of both leaves. -/
def Kept.still (k : Kept) : Still := { pending := k.rest.pending, store := k.rest.store, sealKey := k.rest.sealKey }

/-- Those parts of a state. -/
def State.kept (s : State) : Kept :=
  { rest := { pending := s.pending, regions := s.regions, partPort := s.partPort, enginePart := s.enginePart,
              slots := s.sec.slots, hbmKey := s.sec.hbmKey, store := s.met.store, sealKey := s.met.sealKey },
    hbm := s.hbm, hbmPast := s.hbmPast }

theorem State.kept_pending {s t : State} (h : s.kept.rest = t.kept.rest) : s.pending = t.pending := congrArg Rest.pending h
theorem State.kept_regions {s t : State} (h : s.kept.rest = t.kept.rest) : s.regions = t.regions := congrArg Rest.regions h
theorem State.kept_partPort {s t : State} (h : s.kept.rest = t.kept.rest) : s.partPort = t.partPort := congrArg Rest.partPort h
theorem State.kept_enginePart {s t : State} (h : s.kept.rest = t.kept.rest) : s.enginePart = t.enginePart :=
  congrArg Rest.enginePart h
theorem State.kept_slots {s t : State} (h : s.kept.rest = t.kept.rest) : s.sec.slots = t.sec.slots := congrArg Rest.slots h
theorem State.kept_store {s t : State} (h : s.kept.rest = t.kept.rest) : s.met.store = t.met.store := congrArg Rest.store h
theorem State.kept_sealKey {s t : State} (h : s.kept.rest = t.kept.rest) : s.met.sealKey = t.met.sealKey :=
  congrArg Rest.sealKey h
theorem State.kept_hbmKey {s t : State} (h : s.kept.rest = t.kept.rest) : s.sec.hbmKey = t.sec.hbmKey := congrArg Rest.hbmKey h
theorem State.kept_hbm {s t : State} (h : s.kept = t.kept) : s.hbm = t.hbm := congrArg Kept.hbm h
theorem State.kept_hbmPast {s t : State} (h : s.kept = t.kept) : s.hbmPast = t.hbmPast := congrArg Kept.hbmPast h

theorem State.fixed_pending {s t : State} (h : s.kept.fixed = t.kept.fixed) : s.pending = t.pending := congrArg Fixed.pending h
theorem State.fixed_store {s t : State} (h : s.kept.fixed = t.kept.fixed) : s.met.store = t.met.store := congrArg Fixed.store h
theorem State.fixed_sealKey {s t : State} (h : s.kept.fixed = t.kept.fixed) : s.met.sealKey = t.met.sealKey :=
  congrArg Fixed.sealKey h
theorem State.fixed_hbmPast {s t : State} (h : s.kept.fixed = t.kept.fixed) : s.hbmPast = t.hbmPast := congrArg Fixed.hbmPast h
theorem State.fixed_hbm {s t : State} (h : s.kept.fixed = t.kept.fixed) : s.hbm = t.hbm := congrArg Fixed.hbm h

theorem State.still_pending {s t : State} (h : s.kept.still = t.kept.still) : s.pending = t.pending := congrArg Still.pending h
theorem State.still_store {s t : State} (h : s.kept.still = t.kept.still) : s.met.store = t.met.store := congrArg Still.store h
theorem State.still_sealKey {s t : State} (h : s.kept.still = t.kept.still) : s.met.sealKey = t.met.sealKey :=
  congrArg Still.sealKey h

/-- What keeps everything but the HBM content keeps the least part. -/
theorem State.still_of_rest {s t : State} (h : s.kept.rest = t.kept.rest) : s.kept.still = t.kept.still := by
  unfold Kept.still; rw [h]

/-- What keeps everything but the structure in force keeps the least part. -/
theorem State.still_of_fixed {s t : State} (h : s.kept.fixed = t.kept.fixed) : s.kept.still = t.kept.still :=
  congrArg (fun k : Fixed => ({ pending := k.pending, store := k.store, sealKey := k.sealKey } : Still)) h

/-! ## Changes of one part -/

@[simp] theorem State.modBench_kept (b : Nat) (f : Bench → Bench) (s : State) : (s.modBench b f).kept = s.kept := (rfl)
@[simp] theorem State.modGang_kept (g : Nat) (f : Gang → Gang) (s : State) : (s.modGang g f).kept = s.kept := (rfl)
@[simp] theorem State.modSite_kept (i : Nat) (f : Site → Site) (s : State) : (s.modSite i f).kept = s.kept := (rfl)
@[simp] theorem State.modRae_kept (e : Nat) (f : Rae → Rae) (s : State) : (s.modRae e f).kept = s.kept := (rfl)
@[simp] theorem State.modAcq_kept (u : Nat) (f : Acq → Acq) (s : State) : (s.modAcq u f).kept = s.kept := (rfl)
@[simp] theorem State.modMon_kept (m : Nat) (f : Mon → Mon) (s : State) : (s.modMon m f).kept = s.kept := (rfl)
@[simp] theorem State.modPort_kept (p : Nat) (f : Port → Port) (s : State) : (s.modPort p f).kept = s.kept := (rfl)
@[simp] theorem State.modReader_kept (i : Nat) (f : Reader → Reader) (s : State) : (s.modReader i f).kept = s.kept := (rfl)
@[simp] theorem State.modCmp_kept (i : Nat) (f : Cmp → Cmp) (s : State) : (s.modCmp i f).kept = s.kept := (rfl)
@[simp] theorem State.modTime_kept (f : Time → Time) (s : State) : (s.modTime f).kept = s.kept := (rfl)
@[simp] theorem State.modClk_kept (f : Clk → Clk) (s : State) : (s.modClk f).kept = s.kept := (rfl)
@[simp] theorem State.modGuy_kept (f : Guy → Guy) (s : State) : (s.modGuy f).kept = s.kept := (rfl)
@[simp] theorem State.modPwr_kept (f : Pwr → Pwr) (s : State) : (s.modPwr f).kept = s.kept := (rfl)
@[simp] theorem State.modTop_kept (f : Top → Top) (s : State) : (s.modTop f).kept = s.kept := (rfl)
@[simp] theorem State.modFlt_kept (f : Flt → Flt) (s : State) : (s.modFlt f).kept = s.kept := (rfl)
@[simp] theorem State.modImg_kept (f : Img → Img) (s : State) : (s.modImg f).kept = s.kept := (rfl)
@[simp] theorem State.modSpim_kept (f : Spim → Spim) (s : State) : (s.modSpim f).kept = s.kept := (rfl)
@[simp] theorem State.modTrigx_kept (f : Trigx → Trigx) (s : State) : (s.modTrigx f).kept = s.kept := (rfl)
@[simp] theorem State.free_kept (s : State) : s.free.2.kept = s.kept := (rfl)

/-- A change of the SEC block that leaves the key slots and the per-boot key. -/
@[simp] theorem State.modSec_kept (f : Sec → Sec) (s : State) (h : (f s.sec).slots = s.sec.slots)
    (k : (f s.sec).hbmKey = s.sec.hbmKey) : (s.modSec f).kept = s.kept := by
  simp [State.kept, State.modSec, h, k]

/-- A change of the metrology part that leaves the store and the seal key. -/
@[simp] theorem State.modMet_kept (f : Met → Met) (s : State) (h : (f s.met).store = s.met.store)
    (k : (f s.met).sealKey = s.met.sealKey) : (s.modMet f).kept = s.kept := by
  simp [State.kept, State.modMet, h, k]

/-! ## Repetition and choice -/

@[simp] theorem foldl_kept {α : Type} (f : State → α → State) (h : ∀ s x, (f s x).kept = s.kept) (xs : List α) (s : State) :
    (xs.foldl f s).kept = s.kept := by
  induction xs generalizing s with
  | nil => rfl
  | cons x xs ih => exact (ih (f s x)).trans (h s x)

@[simp] theorem State.each_kept (is : List Nat) (f : Nat → State → State) (h : ∀ i s, (f i s).kept = s.kept) (s : State) :
    (s.each is f).kept = s.kept := foldl_kept _ (fun s i => h i s) is s

@[simp] theorem ite_kept (c : Prop) [Decidable c] (s t : State) : (if c then s else t).kept = if c then s.kept else t.kept := by
  split <;> rfl

@[simp] theorem ite_snd_kept {α : Type} (c : Prop) [Decidable c] (p q : α × State) :
    (if c then p else q).2.kept = if c then p.2.kept else q.2.kept := by
  split <;> rfl

@[simp] theorem foldl_rest {α : Type} (f : State → α → State) (h : ∀ s x, (f s x).kept.rest = s.kept.rest) (xs : List α)
    (s : State) : (xs.foldl f s).kept.rest = s.kept.rest := by
  induction xs generalizing s with
  | nil => rfl
  | cons x xs ih => exact (ih (f s x)).trans (h s x)

@[simp] theorem State.each_rest (is : List Nat) (f : Nat → State → State) (h : ∀ i s, (f i s).kept.rest = s.kept.rest)
    (s : State) : (s.each is f).kept.rest = s.kept.rest := foldl_rest _ (fun s i => h i s) is s

@[simp] theorem foldl_fixed {α : Type} (f : State → α → State) (h : ∀ s x, (f s x).kept.fixed = s.kept.fixed) (xs : List α)
    (s : State) : (xs.foldl f s).kept.fixed = s.kept.fixed := by
  induction xs generalizing s with
  | nil => rfl
  | cons x xs ih => exact (ih (f s x)).trans (h s x)

@[simp] theorem State.each_fixed (is : List Nat) (f : Nat → State → State) (h : ∀ i s, (f i s).kept.fixed = s.kept.fixed)
    (s : State) : (s.each is f).kept.fixed = s.kept.fixed := foldl_fixed _ (fun s i => h i s) is s

@[simp] theorem ite_fixed (c : Prop) [Decidable c] (s t : Kept) : (if c then s else t).fixed = if c then s.fixed else t.fixed := by
  split <;> rfl

@[simp] theorem foldl_still {α : Type} (f : State → α → State) (h : ∀ s x, (f s x).kept.still = s.kept.still) (xs : List α)
    (s : State) : (xs.foldl f s).kept.still = s.kept.still := by
  induction xs generalizing s with
  | nil => rfl
  | cons x xs ih => exact (ih (f s x)).trans (h s x)

@[simp] theorem State.each_still (is : List Nat) (f : Nat → State → State) (h : ∀ i s, (f i s).kept.still = s.kept.still)
    (s : State) : (s.each is f).kept.still = s.kept.still := foldl_still _ (fun s i => h i s) is s

@[simp] theorem ite_still (c : Prop) [Decidable c] (s t : Kept) : (if c then s else t).still = if c then s.still else t.still := by
  split <;> rfl

@[simp] theorem ite_rest (c : Prop) [Decidable c] (s t : Kept) : (if c then s else t).rest = if c then s.rest else t.rest := by
  split <;> rfl

/-- What a choice between two states keeps when both keep it. -/
theorem keep_ite {c : Prop} [Decidable c] {a b : State} {k : Kept} (ha : c → a.kept = k) (hb : ¬c → b.kept = k) :
    (if c then a else b).kept = k := by
  split
  · exact ha ‹_›
  · exact hb ‹_›

/-- The same of everything but the HBM content. -/
theorem keepRest_ite {c : Prop} [Decidable c] {a b : State} {k : Rest} (ha : c → a.kept.rest = k) (hb : ¬c → b.kept.rest = k) :
    (if c then a else b).kept.rest = k := by
  split
  · exact ha ‹_›
  · exact hb ‹_›

/-- The same of what a change of the structure leaves. -/
theorem keepFixed_ite {c : Prop} [Decidable c] {a b : State} {k : Fixed} (ha : c → a.kept.fixed = k)
    (hb : ¬c → b.kept.fixed = k) : (if c then a else b).kept.fixed = k := by
  split
  · exact ha ‹_›
  · exact hb ‹_›

/-- The same of the least part. -/
theorem keepStill_ite {c : Prop} [Decidable c] {a b : State} {k : Still} (ha : c → a.kept.still = k)
    (hb : ¬c → b.kept.still = k) : (if c then a else b).kept.still = k := by
  split
  · exact ha ‹_›
  · exact hb ‹_›

/-! ## HBM -/

/-- What keeps the HBM content, and the key under which it is read, keeps every byte that a read returns. -/
theorem State.kept_hbmAt {s t : State} (h : s.kept = t.kept) : s.hbmAt = t.hbmAt := by
  funext a
  unfold State.hbmAt State.keyNow
  rw [State.kept_hbm h, State.kept_hbmPast h, State.kept_hbmKey (congrArg Kept.rest h)]

@[simp] theorem State.hbmWrite_rest (a : Nat) (bs : List Byte) (s : State) : (s.hbmWrite a bs).kept.rest = s.kept.rest := (rfl)

@[simp] theorem State.hbmZero_rest (a n : Nat) (s : State) : (s.hbmZero a n).kept.rest = s.kept.rest := by
  unfold State.hbmZero
  split <;> rfl

@[simp] theorem State.loseKey_still (s : State) : s.loseKey.kept.still = s.kept.still := by
  unfold State.loseKey
  dsimp only
  split <;> rfl

@[simp] theorem State.drawKey_still (s : State) : s.drawKey.kept.still = s.kept.still := s.loseKey_still

/-- The HBM content is in canonical form. -/
def Fixed.ok (k : Fixed) : Prop := Memory.wf k.hbm = true

theorem ok_ite {c : Prop} [Decidable c] {a b : State} (ha : c → a.kept.fixed.ok) (hb : ¬c → b.kept.fixed.ok) :
    (if c then a else b).kept.fixed.ok := by
  split
  · exact ha ‹_›
  · exact hb ‹_›

theorem foldl_ok {α : Type} (f : State → α → State) (h : ∀ s x, s.kept.fixed.ok → (f s x).kept.fixed.ok) (xs : List α)
    (s : State) (k : s.kept.fixed.ok) : (xs.foldl f s).kept.fixed.ok := by
  induction xs generalizing s with
  | nil => exact k
  | cons x xs ih => exact ih _ (h _ _ k)

theorem State.each_ok (is : List Nat) (f : Nat → State → State) (h : ∀ i s, s.kept.fixed.ok → (f i s).kept.fixed.ok)
    (s : State) (k : s.kept.fixed.ok) : (s.each is f).kept.fixed.ok := foldl_ok _ (fun s i => h i s) is s k

@[simp] theorem State.hbmWrite_ok (a : Nat) (bs : List Byte) (s : State) (h : s.kept.fixed.ok) :
    (s.hbmWrite a bs).kept.fixed.ok := Memory.wf_memPutList _ _ a h

theorem State.loseKey_ok (s : State) (h : s.kept.fixed.ok) : s.loseKey.kept.fixed.ok := by
  unfold State.loseKey
  dsimp only
  split
  · exact h
  · exact rfl

end Sys2Proof.Machine
end

