-- ==== Sys2Proof/Laws/KeptPins.lean ====
section
/-! SUPPORT. What the operations leave alone (Laws/Frame.lean), one lemma for each: the shared operations, the channels, timing, pattern generators, streams, captures, repair engines and acquisition units. -/

section

set_option maxRecDepth 2000
set_option linter.tactic.unusedName false
set_option Elab.async false

namespace Sys2Proof.Machine

@[simp] theorem State.modSeq_kept (b : Nat) (f : Seq → Seq) (s : State) :
    (State.modSeq b f s).kept = s.kept := by
  unfold State.modSeq; simp

@[simp] theorem State.modStrm_kept (b : Nat) (f : Strm → Strm) (s : State) :
    (State.modStrm b f s).kept = s.kept := by
  unfold State.modStrm; simp

@[simp] theorem State.modApg_kept (b : Nat) (f : Apg → Apg) (s : State) :
    (State.modApg b f s).kept = s.kept := by
  unfold State.modApg; simp

@[simp] theorem State.modTmg_kept (b : Nat) (f : Tmg → Tmg) (s : State) :
    (State.modTmg b f s).kept = s.kept := by
  unfold State.modTmg; simp

@[simp] theorem State.modPe_kept (b : Nat) (f : PeWin → PeWin) (s : State) :
    (State.modPe b f s).kept = s.kept := by
  unfold State.modPe; simp

@[simp] theorem State.modChan_kept (b l : Nat) (f : Chan → Chan) (s : State) :
    (State.modChan b l f s).kept = s.kept := by
  unfold State.modChan; simp

@[simp] theorem State.modLane_kept (b l : Nat) (f : LaneP → LaneP) (s : State) :
    (State.modLane b l f s).kept = s.kept := by
  unfold State.modLane; simp

@[simp] theorem State.assertEvt_kept (b i : Nat) (s : State) :
    (State.assertEvt b i s).kept = s.kept := by
  unfold State.assertEvt; simp

@[simp] theorem State.hostWrite_kept (p a : Nat) (bs : List Byte) (s : State) :
    (State.hostWrite p a bs s).kept = s.kept := by
  unfold State.hostWrite; simp

@[simp] theorem State.msix_kept (p v : Nat) (s : State) :
    (State.msix p v s).kept = s.kept := by
  unfold State.msix; simp

@[simp] theorem State.notice_kept (p ty src tick detail : Nat) (s : State) :
    (State.notice p ty src tick detail s).kept = s.kept := by
  unfold State.notice; simp

@[simp] theorem State.noticeTo_kept (p : Option Nat) (ty src tick detail : Nat) (s : State) :
    (State.noticeTo p ty src tick detail s).kept = s.kept := by
  unfold State.noticeTo
  repeat' first
    | with_reducible rfl
    | with_reducible assumption
    | (unfold x; clear x)
    | with_reducible refine keep_ite (fun _ => ?_) (fun _ => ?_)
    | (extract_lets +onlyGivenNames x; refine (show x.kept = s.kept → _ from ?_) ?_; clear_value x; intro hx)
    | (extract_lets +onlyGivenNames x; clear_value x)
    | (simp [*]; done)
    | with_reducible refine (State.each_kept _ _ (fun i s => ?_) _).trans ?_
    | with_reducible refine (foldl_kept _ (fun s i => ?_) _ _).trans ?_
    | (split; all_goals try (rename_i hx; replace hx := (congrArg (fun z => (Prod.snd z).kept) hx).symm; simp [*] at hx))

@[simp] theorem State.gen1_kept (b : Nat) (c : Bool) (s : State) :
    (State.gen1 b c s).kept = s.kept := by
  unfold State.gen1; simp

@[simp] theorem State.noticeAdmin_kept (ty src tick detail : Nat) (s : State) :
    (State.noticeAdmin ty src tick detail s).kept = s.kept := by
  unfold State.noticeAdmin; simp

@[simp] theorem State.portStatus_kept (p : Nat) (f : Port → Port) (s : State) :
    (State.portStatus p f s).kept = s.kept := by
  unfold State.portStatus; simp

@[simp] theorem State.deliver_kept (first : Bool) (d src : Nat) (s : State) :
    (State.deliver first d src s).kept = s.kept := by
  unfold State.deliver; simp

@[simp] theorem State.pulseIn_kept (d src : Nat) (s : State) :
    (State.pulseIn d src s).kept = s.kept := by
  unfold State.pulseIn; simp

@[simp] theorem State.pulse_kept (src : Nat) (s : State) :
    (State.pulse src s).kept = s.kept := by
  unfold State.pulse; simp

@[simp] theorem State.elapse_kept (n : Nat) (s : State) :
    (State.elapse n s).kept = s.kept := by
  unfold State.elapse; simp

@[simp] theorem State.passTo_kept (t : Nat) (seen : List (Nat × Nat)) (ps : List (Nat × Nat × Nat)) (s : State) :
    (State.passTo t seen ps s).kept = s.kept := by
  induction ps generalizing seen s with
  | nil => simp [State.passTo]
  | cons p r ih => obtain ⟨a, b, c⟩ := p; simp [State.passTo, ih]

@[simp] theorem State.advanceTo_kept (t : Nat) (s : State) :
    (State.advanceTo t s).kept = s.kept := by
  unfold State.advanceTo; simp

@[simp] theorem State.toEpoch_kept (e : Nat) (s : State) :
    (State.toEpoch e s).kept = s.kept := by
  unfold State.toEpoch; simp

@[simp] theorem State.hbmWords_rest (a : Nat) (ws : List Word) (s : State) :
    (State.hbmWords a ws s).kept.rest = s.kept.rest := by
  unfold State.hbmWords; simp

@[simp] theorem State.hbmWords_still (a : Nat) (ws : List Word) (s : State) :
    (State.hbmWords a ws s).kept.still = s.kept.still :=
  State.still_of_rest (by simp)

end Sys2Proof.Machine

namespace Sys2Proof.Machine

@[simp] theorem State.acqRefuse_kept (u code : Nat) (s : State) :
    (State.acqRefuse u code s).kept = s.kept := by
  unfold State.acqRefuse; simp

@[simp] theorem State.acqArm_kept (u : Nat) (s : State) : (State.acqArm u s).kept = s.kept := by
  unfold State.acqArm
  extract_lets c fast t
  split
  · simp
  · rw [State.each_kept _ _ fun _ _ => State.modReader_kept _ _ _]; rfl

@[simp] theorem State.acqStartNow_kept (u : Nat) (s : State) :
    (State.acqStartNow u s).kept = s.kept := by
  unfold State.acqStartNow; simp

@[simp] theorem State.acqEnd_kept (u code : Nat) (idle : Bool) (s : State) :
    (State.acqEnd u code idle s).kept = s.kept := by
  unfold State.acqEnd; simp

@[simp] theorem State.acqStop_kept (u : Nat) (s : State) :
    (State.acqStop u s).kept = s.kept := by
  unfold State.acqStop; simp

@[simp] theorem State.converterChange_kept (b l : Nat) (s : State) :
    (State.converterChange b l s).kept = s.kept := by
  unfold State.converterChange; simp

@[simp] theorem State.rawAt_kept (u f j : Nat) (s : State) :
    (State.rawAt u f j s).2.kept = s.kept := by
  unfold State.rawAt
  repeat' first
    | with_reducible rfl
    | with_reducible assumption
    | (unfold x; clear x)
    | with_reducible refine keep_ite (fun _ => ?_) (fun _ => ?_)
    | (extract_lets +onlyGivenNames x; refine (show x.kept = s.kept → _ from ?_) ?_; clear_value x; intro hx)
    | (extract_lets +onlyGivenNames x; clear_value x)
    | (simp [*]; done)
    | with_reducible refine (State.each_kept _ _ (fun i s => ?_) _).trans ?_
    | with_reducible refine (foldl_kept _ (fun s i => ?_) _ _).trans ?_
    | (split; all_goals try (rename_i hx; replace hx := (congrArg (fun z => (Prod.snd z).kept) hx).symm; simp [*] at hx))

@[simp] theorem State.rawsAt_kept (u f : Nat) (js : List Nat) (s : State) : (State.rawsAt u f js s).2.kept = s.kept := by
  induction js generalizing s with
  | nil => rfl
  | cons j r ih => simp [State.rawsAt, ih]

@[simp] theorem State.bufStep_kept (u f : Nat) (s : State) :
    (State.bufStep u f s).2.kept = s.kept := by
  unfold State.bufStep; simp

@[simp] theorem State.entryDone_rest (u f : Nat) (s : State) :
    (State.entryDone u f s).kept.rest = s.kept.rest := by
  unfold State.entryDone; simp

@[simp] theorem State.entryDone_still (u f : Nat) (s : State) :
    (State.entryDone u f s).kept.still = s.kept.still :=
  State.still_of_rest (by simp)

@[simp] theorem State.acqAccept_kept (u f : Nat) (loc : Nat) (srcs : List Nat) (s : State) :
    (State.acqAccept u f loc srcs s).kept = s.kept := by
  unfold State.acqAccept; simp

@[simp] theorem State.takeFrame_rest (u f loc : Nat) (s : State) : (State.takeFrame u f loc s).kept.rest = s.kept.rest := by
  unfold State.takeFrame
  extract_lets a us s0 full ps latched s1 inRec first
  split
  rename_i raw s2 h2
  have k2 : s2.kept.rest = s.kept.rest := by
    split at h2
    · have := State.rawsAt_kept u f a.used s1; rw [h2] at this; simpa [s1, s0] using congrArg Kept.rest this
    · cases h2; simp [s1, s0]
  extract_lets num level win srcs s3 s4 fires s5 s6 done s7 b
  have k3 : s3.kept.rest = s.kept.rest := by simpa [s3] using k2
  split
  · exact k3
  split
  · split
    · exact k3
    · simpa using k3
  have k4 : s4.kept.rest = s.kept.rest := by simpa [s4] using k3
  have k5 : s5.kept.rest = s.kept.rest := by simp only [s5]; split <;> simpa using k4
  have k6 : s6.kept.rest = s.kept.rest := by simpa [s6] using k5
  have k7 : s7.kept.rest = s.kept.rest := by simp only [s7]; split <;> simpa using k6
  split
  · split <;> simpa using k7
  · exact k7

@[simp] theorem State.takeFrame_still (u f loc : Nat) (s : State) :
    (State.takeFrame u f loc s).kept.still = s.kept.still :=
  State.still_of_rest (by simp)

@[simp] theorem State.acqFrame_rest (u : Nat) (s : State) : (State.acqFrame u s).kept.rest = s.kept.rest := by
  unfold State.acqFrame
  extract_lets a f s1 loc s2 s3
  split
  · rfl
  rw [State.takeFrame_rest]
  simp only [s3]; split
  · split <;> simp [s2, s1]
  · simp [s2, s1]

@[simp] theorem State.acqFrame_still (u : Nat) (s : State) :
    (State.acqFrame u s).kept.still = s.kept.still :=
  State.still_of_rest (by simp)

@[simp] theorem State.acqHeader_rest (u : Nat) (s : State) :
    (State.acqHeader u s).kept.rest = s.kept.rest := by
  unfold State.acqHeader; simp

@[simp] theorem State.acqHeader_still (u : Nat) (s : State) :
    (State.acqHeader u s).kept.still = s.kept.still :=
  State.still_of_rest (by simp)

@[simp] theorem State.acqRead_kept (u v : Nat) (s : State) :
    (State.acqRead u v s).kept = s.kept := by
  unfold State.acqRead; simp

@[simp] theorem State.acqCtrl_kept (u : Nat) (v : Word) (s : State) : (State.acqCtrl u v s).kept = s.kept := by
  unfold State.acqCtrl
  extract_lets t
  have k : t.kept = s.kept := by simp only [t]; split <;> simp
  split <;> simp [k]

@[simp] theorem State.acqStart_kept (u : Nat) (s : State) :
    (State.acqStart u s).kept = s.kept := by
  unfold State.acqStart
  repeat' first
    | with_reducible rfl
    | with_reducible assumption
    | (unfold x; clear x)
    | with_reducible refine keep_ite (fun _ => ?_) (fun _ => ?_)
    | (extract_lets +onlyGivenNames x; refine (show x.kept = s.kept → _ from ?_) ?_; clear_value x; intro hx)
    | (extract_lets +onlyGivenNames x; clear_value x)
    | (simp [*]; done)
    | with_reducible refine (State.each_kept _ _ (fun i s => ?_) _).trans ?_
    | with_reducible refine (foldl_kept _ (fun s i => ?_) _ _).trans ?_
    | (split; all_goals try (rename_i hx; replace hx := (congrArg (fun z => (Prod.snd z).kept) hx).symm; simp [*] at hx))

end Sys2Proof.Machine

namespace Sys2Proof.Machine

@[simp] theorem State.flipSafe_kept (b l : Nat) (s : State) :
    (State.flipSafe b l s).kept = s.kept := by
  unfold State.flipSafe; simp

@[simp] theorem State.unitSafe_kept (u j : Nat) (s : State) :
    (State.unitSafe u j s).kept = s.kept := by
  unfold State.unitSafe; simp

@[simp] theorem State.enterSafe_kept (b l : Nat) (s : State) :
    (State.enterSafe b l s).kept = s.kept := by
  unfold State.enterSafe; simp

@[simp] theorem State.benchSafe_kept (b : Nat) (s : State) :
    (State.benchSafe b s).kept = s.kept := by
  unfold State.benchSafe; simp

@[simp] theorem State.leaveSafe_kept (b l : Nat) (s : State) :
    (State.leaveSafe b l s).kept = s.kept := by
  unfold State.leaveSafe; simp

@[simp] theorem State.release_kept (b : Nat) (v : Word) (s : State) :
    (State.release b v s).kept = s.kept := by
  unfold State.release; simp

@[simp] theorem State.laneStore_kept (b l off : Nat) (v : Word) (s : State) :
    (State.laneStore b l off v s).kept = s.kept := by
  unfold State.laneStore; simp

@[simp] theorem State.peErr_kept (b code off : Nat) (s : State) :
    (State.peErr b code off s).kept = s.kept := by
  unfold State.peErr; simp

@[simp] theorem State.peStep_kept (b : Nat) (s : State) :
    (State.peStep b s).kept = s.kept := by
  unfold State.peStep; simp

@[simp] theorem State.unitJudge_kept (u : Nat) (s : State) :
    (State.unitJudge u s).kept = s.kept := by
  unfold State.unitJudge; simp

@[simp] theorem State.peWrite_kept (b : Nat) (v : Word) (s : State) :
    (State.peWrite b v s).kept = s.kept := by
  unfold State.peWrite; simp

@[simp] theorem State.peRead_kept (b : Nat) (s : State) :
    (State.peRead b s).2.kept = s.kept := by
  unfold State.peRead
  repeat' first
    | with_reducible rfl
    | with_reducible assumption
    | (unfold x; clear x)
    | with_reducible refine keep_ite (fun _ => ?_) (fun _ => ?_)
    | (extract_lets +onlyGivenNames x; refine (show x.kept = s.kept → _ from ?_) ?_; clear_value x; intro hx)
    | (extract_lets +onlyGivenNames x; clear_value x)
    | (simp [*]; done)
    | with_reducible refine (State.each_kept _ _ (fun i s => ?_) _).trans ?_
    | with_reducible refine (foldl_kept _ (fun s i => ?_) _ _).trans ?_
    | (split; all_goals try (rename_i hx; replace hx := (congrArg (fun z => (Prod.snd z).kept) hx).symm; simp [*] at hx))

@[simp] theorem State.hvEnd_kept (b : Nat) (s : State) :
    (State.hvEnd b s).kept = s.kept := by
  unfold State.hvEnd
  repeat' first
    | with_reducible rfl
    | with_reducible assumption
    | (unfold x; clear x)
    | with_reducible refine keep_ite (fun _ => ?_) (fun _ => ?_)
    | (extract_lets +onlyGivenNames x; refine (show x.kept = s.kept → _ from ?_) ?_; clear_value x; intro hx)
    | (extract_lets +onlyGivenNames x; clear_value x)
    | (simp [*]; done)
    | with_reducible refine (State.each_kept _ _ (fun i s => ?_) _).trans ?_
    | with_reducible refine (foldl_kept _ (fun s i => ?_) _ _).trans ?_
    | (split; all_goals try (rename_i hx; replace hx := (congrArg (fun z => (Prod.snd z).kept) hx).symm; simp [*] at hx))

@[simp] theorem State.dischargeDone_kept (b : Nat) (s : State) :
    (State.dischargeDone b s).kept = s.kept := by
  unfold State.dischargeDone; simp

@[simp] theorem State.clampIn_kept (b l : Nat) (s : State) :
    (State.clampIn b l s).kept = s.kept := by
  unfold State.clampIn; simp

@[simp] theorem State.clampOut_kept (b l : Nat) (s : State) :
    (State.clampOut b l s).kept = s.kept := by
  unfold State.clampOut; simp

@[simp] theorem State.fillCodes_kept {k : Nat} (n : Nat) (cs : List (BitVec k)) (s : State) :
    (State.fillCodes n cs s).2.kept = s.kept := by
  induction n generalizing cs s with
  | zero => rfl
  | succ n ih => cases cs <;> simp [State.fillCodes, ih]

@[simp] theorem State.adcNext_kept (b l : Nat) (codes : List (BitVec 18)) (s : State) :
    (State.adcNext b l codes s).kept = s.kept := by
  unfold State.adcNext; simp

end Sys2Proof.Machine

namespace Sys2Proof.Machine

@[simp] theorem State.tmgErr_kept (b code off : Nat) (s : State) :
    (State.tmgErr b code off s).kept = s.kept := by
  unfold State.tmgErr; simp

@[simp] theorem State.slotWrite_kept (b : Nat) (hi : Bool) (v : Word) (s : State) :
    (State.slotWrite b hi v s).kept = s.kept := by
  unfold State.slotWrite; simp

@[simp] theorem State.libStore_kept (b off : Nat) (v : Word) (s : State) :
    (State.libStore b off v s).kept = s.kept := by
  unfold State.libStore; simp

@[simp] theorem State.tmgStep_kept (b : Nat) (s : State) :
    (State.tmgStep b s).kept = s.kept := by
  unfold State.tmgStep; simp

@[simp] theorem State.tmgWrite_kept (b : Nat) (v : Word) (s : State) :
    (State.tmgWrite b v s).kept = s.kept := by
  unfold State.tmgWrite; simp

@[simp] theorem State.tmgRead_kept (b : Nat) (s : State) :
    (State.tmgRead b s).2.kept = s.kept := by
  unfold State.tmgRead; simp

@[simp] theorem State.dskWrite_kept (b l : Nat) (v : Word) (s : State) :
    (State.dskWrite b l v s).kept = s.kept := by
  unfold State.dskWrite; simp

end Sys2Proof.Machine

namespace Sys2Proof.Machine

@[simp] theorem State.apgErr_kept (b code off : Nat) (s : State) :
    (State.apgErr b code off s).kept = s.kept := by
  unfold State.apgErr; simp

@[simp] theorem State.apgWrite_kept (b off : Nat) (v : Word) (s : State) :
    (State.apgWrite b off v s).kept = s.kept := by
  unfold State.apgWrite; simp

@[simp] theorem State.clutStep_kept (b : Nat) (s : State) :
    (State.clutStep b s).kept = s.kept := by
  unfold State.clutStep; simp

@[simp] theorem State.preStep_kept (b : Nat) (s : State) :
    (State.preStep b s).kept = s.kept := by
  unfold State.preStep; simp

@[simp] theorem State.clutAccess_kept (b : Nat) (wr : Option Word) (s : State) :
    (State.clutAccess b wr s).2.kept = s.kept := by
  unfold State.clutAccess
  repeat' first
    | with_reducible rfl
    | with_reducible assumption
    | (unfold x; clear x)
    | with_reducible refine keep_ite (fun _ => ?_) (fun _ => ?_)
    | (extract_lets +onlyGivenNames x; refine (show x.kept = s.kept → _ from ?_) ?_; clear_value x; intro hx)
    | (extract_lets +onlyGivenNames x; clear_value x)
    | (simp [*]; done)
    | with_reducible refine (State.each_kept _ _ (fun i s => ?_) _).trans ?_
    | with_reducible refine (foldl_kept _ (fun s i => ?_) _ _).trans ?_
    | (split; all_goals try (rename_i hx; replace hx := (congrArg (fun z => (Prod.snd z).kept) hx).symm; simp [*] at hx))

@[simp] theorem State.preAccess_kept (b : Nat) (wr : Option Word) (s : State) :
    (State.preAccess b wr s).2.kept = s.kept := by
  unfold State.preAccess
  repeat' first
    | with_reducible rfl
    | with_reducible assumption
    | (unfold x; clear x)
    | with_reducible refine keep_ite (fun _ => ?_) (fun _ => ?_)
    | (extract_lets +onlyGivenNames x; refine (show x.kept = s.kept → _ from ?_) ?_; clear_value x; intro hx)
    | (extract_lets +onlyGivenNames x; clear_value x)
    | (simp [*]; done)
    | with_reducible refine (State.each_kept _ _ (fun i s => ?_) _).trans ?_
    | with_reducible refine (foldl_kept _ (fun s i => ?_) _ _).trans ?_
    | (split; all_goals try (rename_i hx; replace hx := (congrArg (fun z => (Prod.snd z).kept) hx).symm; simp [*] at hx))

end Sys2Proof.Machine

namespace Sys2Proof.Machine

@[simp] theorem State.spimErr_kept (code : Nat) (s : State) :
    (State.spimErr code s).kept = s.kept := by
  unfold State.spimErr; simp

@[simp] theorem State.pspiQueue_kept (frame src rank : Nat) (s : State) :
    (State.pspiQueue frame src rank s).kept = s.kept := by
  unfold State.pspiQueue; simp

@[simp] theorem State.pspiPattern_kept (lead frame : Nat) (s : State) :
    (State.pspiPattern lead frame s).kept = s.kept := by
  unfold State.pspiPattern; simp

@[simp] theorem State.pspiHost_kept (mspi : Bool) (frame : Nat) (s : State) :
    (State.pspiHost mspi frame s).kept = s.kept := by
  unfold State.pspiHost; simp

@[simp] theorem State.pspiSafe_kept (s : State) :
    (State.pspiSafe s).kept = s.kept := by
  unfold State.pspiSafe; simp

@[simp] theorem State.pspiStart_kept (s : State) : (State.pspiStart s).kept = s.kept := by
  unfold State.pspiStart
  split
  · simp
  · rfl

@[simp] theorem State.rxWords_kept (us : List (Nat × Word)) (ws : List Word) (s : State) :
    (State.rxWords us ws s).2.kept = s.kept := by
  induction us generalizing ws s with
  | nil => rfl
  | cons u r ih => obtain ⟨n, x⟩ := u; cases ws <;> simp [State.rxWords, ih]

@[simp] theorem State.pspiEnd_kept (rx : List Word) (s : State) :
    (State.pspiEnd rx s).kept = s.kept := by
  unfold State.pspiEnd
  repeat' first
    | with_reducible rfl
    | with_reducible assumption
    | (unfold x; clear x)
    | with_reducible refine keep_ite (fun _ => ?_) (fun _ => ?_)
    | (extract_lets +onlyGivenNames x; refine (show x.kept = s.kept → _ from ?_) ?_; clear_value x; intro hx)
    | (extract_lets +onlyGivenNames x; clear_value x)
    | (simp [*]; done)
    | with_reducible refine (State.each_kept _ _ (fun i s => ?_) _).trans ?_
    | with_reducible refine (foldl_kept _ (fun s i => ?_) _ _).trans ?_
    | (split; all_goals try (rename_i hx; replace hx := (congrArg (fun z => (Prod.snd z).kept) hx).symm; simp [*] at hx))

@[simp] theorem State.frmStep_kept (s : State) :
    (State.frmStep s).kept = s.kept := by
  unfold State.frmStep; simp

@[simp] theorem State.frmWrite_kept (v : Word) (s : State) :
    (State.frmWrite v s).kept = s.kept := by
  unfold State.frmWrite; simp

@[simp] theorem State.frmRead_kept (s : State) :
    (State.frmRead s).2.kept = s.kept := by
  unfold State.frmRead; simp

@[simp] theorem State.selCfgWrite_kept (i : Nat) (v : Word) (s : State) :
    (State.selCfgWrite i v s).kept = s.kept := by
  unfold State.selCfgWrite; simp

@[simp] theorem State.selDlyWrite_kept (i : Nat) (v : Word) (s : State) :
    (State.selDlyWrite i v s).kept = s.kept := by
  unfold State.selDlyWrite; simp

end Sys2Proof.Machine

namespace Sys2Proof.Machine

@[simp] theorem State.modJob_kept (p : Nat) (tag : BitVec 16) (f : Job → Job) (s : State) :
    (State.modJob p tag f s).kept = s.kept := by
  unfold State.modJob; simp

@[simp] theorem State.endJob_kept (p : Nat) (tag : BitVec 16) (status detail result : Nat) (s : State) :
    (State.endJob p tag status detail result s).kept = s.kept := by
  unfold State.endJob; simp

@[simp] theorem State.writeCompletion_kept (p : Nat) (j : Job) (s : State) :
    (State.writeCompletion p j s).kept = s.kept := by
  unfold State.writeCompletion; simp

@[simp] theorem State.endTypes_kept (p : Nat) (s : State) :
    (State.endTypes p s).kept = s.kept := by
  unfold State.endTypes; simp

@[simp] theorem State.jobComplete_kept (p : Nat) (tag : BitVec 16) (s : State) :
    (State.jobComplete p tag s).kept = s.kept := by
  unfold State.jobComplete
  repeat' first
    | with_reducible rfl
    | with_reducible assumption
    | (unfold x; clear x)
    | with_reducible refine keep_ite (fun _ => ?_) (fun _ => ?_)
    | (extract_lets +onlyGivenNames x; refine (show x.kept = s.kept → _ from ?_) ?_; clear_value x; intro hx)
    | (extract_lets +onlyGivenNames x; clear_value x)
    | (simp [*]; done)
    | with_reducible refine (State.each_kept _ _ (fun i s => ?_) _).trans ?_
    | with_reducible refine (foldl_kept _ (fun s i => ?_) _ _).trans ?_
    | (split; all_goals try (rename_i hx; replace hx := (congrArg (fun z => (Prod.snd z).kept) hx).symm; simp [*] at hx))

end Sys2Proof.Machine

namespace Sys2Proof.Machine

@[simp] theorem State.raeDrain_kept (e : Nat) (s : State) :
    (State.raeDrain e s).kept = s.kept := by
  unfold State.raeDrain; simp

@[simp] theorem State.raeOffer_kept (e region : Nat) (p : Point) (s : State) :
    (State.raeOffer e region p s).kept = s.kept := by
  unfold State.raeOffer; simp

@[simp] theorem State.raeStart_kept (e : Nat) (s : State) :
    (State.raeStart e s).kept = s.kept := by
  unfold State.raeStart; simp

@[simp] theorem State.raeClose_kept (e : Nat) (s : State) :
    (State.raeClose e s).kept = s.kept := by
  unfold State.raeClose; simp

@[simp] theorem State.raeCtrl_kept (e : Nat) (v : Word) (s : State) :
    (State.raeCtrl e v s).kept = s.kept := by
  unfold State.raeCtrl; simp

@[simp] theorem State.searchDone_kept (e : Nat) (s : State) :
    (State.searchDone e s).kept = s.kept := by
  unfold State.searchDone; simp

@[simp] theorem State.solRead_kept (e : Nat) (s : State) :
    (State.solRead e s).2.kept = s.kept := by
  unfold State.solRead; simp

end Sys2Proof.Machine

namespace Sys2Proof.Machine

@[simp] theorem State.clearFlags_kept (g n : Nat) (s : State) :
    (State.clearFlags g n s).kept = s.kept := by
  unfold State.clearFlags; simp

@[simp] theorem State.siteFail_kept (site n : Nat) (s : State) :
    (State.siteFail site n s).kept = s.kept := by
  unfold State.siteFail; simp

@[simp] theorem State.laneResult_kept (f : Flight) (v : Vec) (l : Nat) (odd : Bool) (volts : Option (List Int)) (s : State) :
    (State.laneResult f v l odd volts s).2.kept = s.kept := by
  unfold State.laneResult
  repeat' first
    | with_reducible rfl
    | with_reducible assumption
    | (unfold x; clear x)
    | with_reducible refine keep_ite (fun _ => ?_) (fun _ => ?_)
    | (extract_lets +onlyGivenNames x; refine (show x.kept = s.kept → _ from ?_) ?_; clear_value x; intro hx)
    | (extract_lets +onlyGivenNames x; clear_value x)
    | (simp [*]; done)
    | with_reducible refine (State.each_kept _ _ (fun i s => ?_) _).trans ?_
    | with_reducible refine (foldl_kept _ (fun s i => ?_) _ _).trans ?_
    | (split; all_goals try (rename_i hx; replace hx := (congrArg (fun z => (Prod.snd z).kept) hx).symm; simp [*] at hx))

@[simp] theorem State.laneResults_kept (f : Flight) (v : Vec) (b : Nat) (samples : List PinSample) (ls : List Nat) (s : State) :
    (State.laneResults f v b samples ls s).2.kept = s.kept := by
  induction ls generalizing s with
  | nil => rfl
  | cons l r ih => simp [State.laneResults, ih]

end Sys2Proof.Machine

namespace Sys2Proof.Machine

@[simp] theorem State.siteCnt_kept (i : Nat) (get : Site → Cnt48) (set : Cnt48 → Site → Site) (n : Nat) (s : State) :
    (State.siteCnt i get set n s).kept = s.kept := by
  unfold State.siteCnt; simp

@[simp] theorem State.logDropped_kept (i : Nat) (s : State) :
    (State.logDropped i s).kept = s.kept := by
  unfold State.logDropped; simp

@[simp] theorem State.offerLog_kept (i : Nat) (e : LogEntry) (s : State) :
    (State.offerLog i e s).kept = s.kept := by
  unfold State.offerLog; simp

@[simp] theorem State.offerBitmap_kept (i : Nat) (bits : List Nat) (s : State) :
    (State.offerBitmap i bits s).kept = s.kept := by
  unfold State.offerBitmap; simp

@[simp] theorem State.serveWrite_rest (i : Nat) (s : State) :
    (State.serveWrite i s).kept.rest = s.kept.rest := by
  unfold State.serveWrite
  repeat' first
    | with_reducible rfl
    | with_reducible assumption
    | (unfold x; clear x)
    | with_reducible refine keepRest_ite (fun _ => ?_) (fun _ => ?_)
    | (extract_lets +onlyGivenNames x; refine (show x.kept.rest = s.kept.rest → _ from ?_) ?_; clear_value x; intro hx)
    | (extract_lets +onlyGivenNames x; clear_value x)
    | (simp [*]; done)
    | with_reducible refine (State.each_rest _ _ (fun i s => ?_) _).trans ?_
    | with_reducible refine (foldl_rest _ (fun s i => ?_) _ _).trans ?_
    | (split; all_goals try (rename_i hx; replace hx := (congrArg (fun z => (Prod.snd z).kept.rest) hx).symm; simp [*] at hx))

@[simp] theorem State.serveWrite_still (i : Nat) (s : State) :
    (State.serveWrite i s).kept.still = s.kept.still :=
  State.still_of_rest (by simp)

@[simp] theorem State.closeLog_kept (site : Nat) (e : LogEntry) (s : State) :
    (State.closeLog site e s).kept = s.kept := by
  unfold State.closeLog; simp

@[simp] theorem State.flushLog_kept (site : Nat) (s : State) :
    (State.flushLog site s).kept = s.kept := by
  unfold State.flushLog; simp

@[simp] theorem State.closeEntry_kept (b h site : Nat) (s : State) :
    (State.closeEntry b h site s).kept = s.kept := by
  unfold State.closeEntry
  repeat' first
    | with_reducible rfl
    | with_reducible assumption
    | (unfold x; clear x)
    | with_reducible refine keep_ite (fun _ => ?_) (fun _ => ?_)
    | (extract_lets +onlyGivenNames x; refine (show x.kept = s.kept → _ from ?_) ?_; clear_value x; intro hx)
    | (extract_lets +onlyGivenNames x; clear_value x)
    | (simp [*]; done)
    | with_reducible refine (State.each_kept _ _ (fun i s => ?_) _).trans ?_
    | with_reducible refine (foldl_kept _ (fun s i => ?_) _ _).trans ?_
    | (split; all_goals try (rename_i hx; replace hx := (congrArg (fun z => (Prod.snd z).kept) hx).symm; simp [*] at hx))

@[simp] theorem State.countFails_kept (b : Nat) (lanes : List Nat) (s : State) :
    (State.countFails b lanes s).kept = s.kept := by
  unfold State.countFails; simp

@[simp] theorem State.logVector_kept (b h site : Nat) (e : LogEntry) (hasSample cmp : Bool) (s : State) :
    (State.logVector b h site e hasSample cmp s).kept = s.kept := by
  unfold State.logVector
  repeat' first
    | with_reducible rfl
    | with_reducible assumption
    | (unfold x; clear x)
    | with_reducible refine keep_ite (fun _ => ?_) (fun _ => ?_)
    | (extract_lets +onlyGivenNames x; refine (show x.kept = s.kept → _ from ?_) ?_; clear_value x; intro hx)
    | (extract_lets +onlyGivenNames x; clear_value x)
    | (simp [*]; done)
    | with_reducible refine (State.each_kept _ _ (fun i s => ?_) _).trans ?_
    | with_reducible refine (foldl_kept _ (fun s i => ?_) _ _).trans ?_
    | (split; all_goals try (rename_i hx; replace hx := (congrArg (fun z => (Prod.snd z).kept) hx).symm; simp [*] at hx))

@[simp] theorem State.bitmapVector_kept (site : Nat) (sn : Snap) (ios : List Nat) (s : State) :
    (State.bitmapVector site sn ios s).kept = s.kept := by
  unfold State.bitmapVector; simp

@[simp] theorem State.repairVector_kept (b site : Nat) (sn : Snap) (ios : List Nat) (other : Bool) (s : State) :
    (State.repairVector b site sn ios other s).kept = s.kept := by
  unfold State.repairVector; simp

@[simp] theorem State.siteVector_kept (b h site : Nat) (f : Flight) (v : Vec) (rs : List LaneRes) (s : State) :
    (State.siteVector b h site f v rs s).kept = s.kept := by
  unfold State.siteVector; simp

@[simp] theorem State.vectorReturn_kept (samples : List PinSample) (j b : Nat) (s : State) :
    (State.vectorReturn samples j b s).kept = s.kept := by
  unfold State.vectorReturn
  repeat' first
    | with_reducible rfl
    | with_reducible assumption
    | (unfold x; clear x)
    | with_reducible refine keep_ite (fun _ => ?_) (fun _ => ?_)
    | (extract_lets +onlyGivenNames x; refine (show x.kept = s.kept → _ from ?_) ?_; clear_value x; intro hx)
    | (extract_lets +onlyGivenNames x; clear_value x)
    | (simp [*]; done)
    | with_reducible refine (State.each_kept _ _ (fun i s => ?_) _).trans ?_
    | with_reducible refine (foldl_kept _ (fun s i => ?_) _ _).trans ?_
    | (split; all_goals try (rename_i hx; replace hx := (congrArg (fun z => (Prod.snd z).kept) hx).symm; simp [*] at hx))

@[simp] theorem State.runEnd_kept (g : Nat) (s : State) :
    (State.runEnd g s).kept = s.kept := by
  unfold State.runEnd; simp

@[simp] theorem State.resultReturn_kept (g : Nat) (samples : List PinSample) (s : State) :
    (State.resultReturn g samples s).kept = s.kept := by
  unfold State.resultReturn
  repeat' first
    | with_reducible rfl
    | with_reducible assumption
    | (unfold x; clear x)
    | with_reducible refine keep_ite (fun _ => ?_) (fun _ => ?_)
    | (extract_lets +onlyGivenNames x; refine (show x.kept = s.kept → _ from ?_) ?_; clear_value x; intro hx)
    | (extract_lets +onlyGivenNames x; clear_value x)
    | (simp [*]; done)
    | with_reducible refine (State.each_kept _ _ (fun i s => ?_) _).trans ?_
    | with_reducible refine (foldl_kept _ (fun s i => ?_) _ _).trans ?_
    | (split; all_goals try (rename_i hx; replace hx := (congrArg (fun z => (Prod.snd z).kept) hx).symm; simp [*] at hx))

@[simp] theorem State.failStart_kept (g : Nat) (s : State) :
    (State.failStart g s).kept = s.kept := by
  unfold State.failStart; simp

@[simp] theorem State.ffRearmWrite_kept (b : Nat) (v : Word) (s : State) :
    (State.ffRearmWrite b v s).kept = s.kept := by
  unfold State.ffRearmWrite; simp

end Sys2Proof.Machine

end
end

