-- ==== Sys2Proof/Laws/KeptRun.lean ====
section
/-! SUPPORT. What the operations leave alone (Laws/Frame.lean), one lemma for each: the runs of the gangs, their beats, faults, monitors, time, clocks and images. -/

section

set_option maxRecDepth 2000
set_option linter.tactic.unusedName false
set_option Elab.async false

namespace Sys2Proof.Machine

@[simp] theorem State.closeRun_kept (s : State) :
    (State.closeRun s).kept = s.kept := by
  unfold State.closeRun; simp

@[simp] theorem State.landItem_kept (i : Word × Word) (s : State) :
    (State.landItem i s).kept = s.kept := by
  unfold State.landItem
  repeat' first
    | with_reducible rfl
    | with_reducible assumption
    | (unfold x; clear x)
    | with_reducible refine keep_ite (fun _ => ?_) (fun _ => ?_)
    | (extract_lets +onlyGivenNames x; refine (show x.kept = s.kept → _ from ?_) ?_; clear_value x; intro hx)
    | (extract_lets +onlyGivenNames x; clear_value x)
    | (simp [*]; done)
    | with_reducible refine (State.each_kept _ _ (fun i s => ?_) _).trans ?_
    | with_reducible refine (foldl_kept _ (fun s i => ?_) _ _).trans ?_
    | (split; all_goals try (rename_i hx; replace hx := (congrArg (fun z => (Prod.snd z).kept) hx).symm; simp [*] at hx))

@[simp] theorem State.modApply_kept (p : Nat) (tag : BitVec 16) (f : Apply → Apply) (s : State) :
    (State.modApply p tag f s).kept = s.kept := by
  unfold State.modApply; simp

@[simp] theorem State.applyStat_kept (p : Nat) (v : ApplyStat) (s : State) :
    (State.applyStat p v s).kept = s.kept := by
  unfold State.applyStat; simp

@[simp] theorem State.applyFin_kept (p : Nat) (tag : BitVec 16) (s : State) :
    (State.applyFin p tag s).kept = s.kept := by
  unfold State.applyFin
  repeat' first
    | with_reducible rfl
    | with_reducible assumption
    | (unfold x; clear x)
    | with_reducible refine keep_ite (fun _ => ?_) (fun _ => ?_)
    | (extract_lets +onlyGivenNames x; refine (show x.kept = s.kept → _ from ?_) ?_; clear_value x; intro hx)
    | (extract_lets +onlyGivenNames x; clear_value x)
    | (simp [*]; done)
    | with_reducible refine (State.each_kept _ _ (fun i s => ?_) _).trans ?_
    | with_reducible refine (foldl_kept _ (fun s i => ?_) _ _).trans ?_
    | (split; all_goals try (rename_i hx; replace hx := (congrArg (fun z => (Prod.snd z).kept) hx).symm; simp [*] at hx))

@[simp] theorem State.applyEnd_kept (g : Nat) (s : State) :
    (State.applyEnd g s).kept = s.kept := by
  unfold State.applyEnd; simp

@[simp] theorem State.applyRefuse_kept (p : Nat) (tag : BitVec 16) (v : ApplyStat) (s : State) :
    (State.applyRefuse p tag v s).kept = s.kept := by
  unfold State.applyRefuse; simp

@[simp] theorem State.landApply_kept (g n : Nat) (a : Apply) (q : List (Word × Word) × State) :
    (State.landApply g n a q).2.kept = q.2.kept := by
  unfold State.landApply
  extract_lets +onlyGivenNames its
  split <;> simp

@[simp] theorem State.landCuts_kept (g n : Nat) (flagBeat : Bool) (s : State) :
    (State.landCuts g n flagBeat s).2.kept = s.kept := by
  unfold State.landCuts
  generalize (s.img.applies.filter _) = as
  suffices h : ∀ (q : List (Word × Word) × State), q.2.kept = s.kept →
      (as.foldl (fun q a => State.landApply g n a q) q).2.kept = s.kept from h _ rfl
  induction as with
  | nil => exact fun _ h => h
  | cons a as ih => intro q h; exact ih _ (by simp [h])

@[simp] theorem State.setRun_kept (g : Nat) (q : SeqState) (s : State) :
    (State.setRun g q s).kept = s.kept := by
  unfold State.setRun; simp

@[simp] theorem State.lowUpdate_kept (b : Nat) (s : State) :
    (State.lowUpdate b s).kept = s.kept := by
  unfold State.lowUpdate; simp

@[simp] theorem State.runStops_kept (s : State) :
    (State.runStops s).kept = s.kept := by
  unfold State.runStops; simp

@[simp] theorem State.gangEnds_kept (g : Nat) (final : SeqState) (s : State) :
    (State.gangEnds g final s).kept = s.kept := by
  unfold State.gangEnds; simp

@[simp] theorem State.drainDone_kept (g : Nat) (s : State) :
    (State.drainDone g s).kept = s.kept := by
  unfold State.drainDone; simp

@[simp] theorem State.faultTail_kept (g : Nat) (s : State) :
    (State.faultTail g s).kept = s.kept := by
  unfold State.faultTail; simp

@[simp] theorem State.stopNow_kept (g : Nat) (s : State) :
    (State.stopNow g s).kept = s.kept := by
  unfold State.stopNow; simp

@[simp] theorem State.stopGang_kept (g : Nat) (safe : Bool) (s : State) :
    (State.stopGang g safe s).kept = s.kept := by
  unfold State.stopGang; simp

end Sys2Proof.Machine

namespace Sys2Proof.Machine

@[simp] theorem State.faultNotice_kept (ty src : Nat) (parts : List Nat) (tick detail : Nat) (s : State) :
    (State.faultNotice ty src parts tick detail s).kept = s.kept := by
  unfold State.faultNotice; simp

@[simp] theorem State.latchFault_kept (src c sub : Nat) (rail : Bool) (s : State) :
    (State.latchFault src c sub rail s).kept = s.kept := by
  unfold State.latchFault; simp

@[simp] theorem State.dropJob_kept (p : Nat) (j : Job) (s : State) :
    (State.dropJob p j s).kept = s.kept := by
  unfold State.dropJob
  repeat' first
    | with_reducible rfl
    | with_reducible assumption
    | (unfold x; clear x)
    | with_reducible refine keep_ite (fun _ => ?_) (fun _ => ?_)
    | (extract_lets +onlyGivenNames x; refine (show x.kept = s.kept → _ from ?_) ?_; clear_value x; intro hx)
    | (extract_lets +onlyGivenNames x; clear_value x)
    | (simp [*]; done)
    | with_reducible refine (State.each_kept _ _ (fun i s => ?_) _).trans ?_
    | with_reducible refine (foldl_kept _ (fun s i => ?_) _ _).trans ?_
    | (split; all_goals try (rename_i hx; replace hx := (congrArg (fun z => (Prod.snd z).kept) hx).symm; simp [*] at hx))

@[simp] theorem State.abortJobs_kept (p : Nat) (c : Job → Bool) (s : State) :
    (State.abortJobs p c s).kept = s.kept := by
  unfold State.abortJobs; simp

@[simp] theorem State.endFences_kept (p : Nat) (s : State) :
    (State.endFences p s).kept = s.kept := by
  unfold State.endFences; simp

@[simp] theorem State.gateBench_kept (b : Nat) (s : State) :
    (State.gateBench b s).kept = s.kept := by
  unfold State.gateBench; simp

@[simp] theorem State.runOrReady_kept (s : State) :
    (State.runOrReady s).kept = s.kept := by
  unfold State.runOrReady; simp

@[simp] theorem State.intakeCut_kept (i : Nat) (s : State) :
    (State.intakeCut i s).kept = s.kept := by
  unfold State.intakeCut; simp

@[simp] theorem State.siteFault_kept (src i : Nat) (s : State) :
    (State.siteFault src i s).kept = s.kept := by
  unfold State.siteFault
  repeat' first
    | with_reducible rfl
    | with_reducible assumption
    | (unfold x; clear x)
    | with_reducible refine keep_ite (fun _ => ?_) (fun _ => ?_)
    | (extract_lets +onlyGivenNames x; refine (show x.kept = s.kept → _ from ?_) ?_; clear_value x; intro hx)
    | (extract_lets +onlyGivenNames x; clear_value x)
    | (simp [*]; done)
    | with_reducible refine (State.each_kept _ _ (fun i s => ?_) _).trans ?_
    | with_reducible refine (foldl_kept _ (fun s i => ?_) _ _).trans ?_
    | (split; all_goals try (rename_i hx; replace hx := (congrArg (fun z => (Prod.snd z).kept) hx).symm; simp [*] at hx))

@[simp] theorem State.ucReact_kept (src : Nat) (s : State) :
    (State.ucReact src s).kept = s.kept := by
  unfold State.ucReact
  repeat' first
    | with_reducible rfl
    | with_reducible assumption
    | (unfold x; clear x)
    | with_reducible refine keep_ite (fun _ => ?_) (fun _ => ?_)
    | (extract_lets +onlyGivenNames x; refine (show x.kept = s.kept → _ from ?_) ?_; clear_value x; intro hx)
    | (extract_lets +onlyGivenNames x; clear_value x)
    | (simp [*]; done)
    | with_reducible refine (State.each_kept _ _ (fun i s => ?_) _).trans ?_
    | with_reducible refine (foldl_kept _ (fun s i => ?_) _ _).trans ?_
    | (split; all_goals try (rename_i hx; replace hx := (congrArg (fun z => (Prod.snd z).kept) hx).symm; simp [*] at hx))

@[simp] theorem State.ftStop_kept (g : Nat) (s : State) :
    (State.ftStop g s).kept = s.kept := by
  unfold State.ftStop; simp

@[simp] theorem State.dischargeAll_kept (s : State) :
    (State.dischargeAll s).kept = s.kept := by
  unfold State.dischargeAll; simp

@[simp] theorem State.ftReact_kept (src : Nat) (s : State) :
    (State.ftReact src s).kept = s.kept := by
  unfold State.ftReact; simp

@[simp] theorem State.stickInAon_kept (s : State) : (State.stickInAon s).kept = s.kept := rfl

@[simp] theorem State.sample_kept (src : Nat) (rail : Bool) (sub : Nat) (s : State) :
    (State.sample src rail sub s).kept = s.kept := by
  unfold State.sample
  repeat' first
    | with_reducible rfl
    | with_reducible assumption
    | (unfold x; clear x)
    | with_reducible refine keep_ite (fun _ => ?_) (fun _ => ?_)
    | (extract_lets +onlyGivenNames x; refine (show x.kept = s.kept → _ from ?_) ?_; clear_value x; intro hx)
    | (extract_lets +onlyGivenNames x; clear_value x)
    | (simp [*]; done)
    | with_reducible refine (State.each_kept _ _ (fun i s => ?_) _).trans ?_
    | with_reducible refine (foldl_kept _ (fun s i => ?_) _ _).trans ?_
    | (split; all_goals try (rename_i hx; replace hx := (congrArg (fun z => (Prod.snd z).kept) hx).symm; simp [*] at hx))

@[simp] theorem State.raise_kept (src : Nat) (rail : Bool) (sub : Nat) (s : State) :
    (State.raise src rail sub s).kept = s.kept := by
  unfold State.raise; simp

@[simp] theorem State.sampleAgain_kept (s : State) :
    (State.sampleAgain s).kept = s.kept := by
  unfold State.sampleAgain; simp

@[simp] theorem State.fatalLeft_kept (s : State) : (State.fatalLeft s).kept = s.kept := by
  unfold State.fatalLeft; split <;> simp

end Sys2Proof.Machine

namespace Sys2Proof.Machine

@[simp] theorem State.monTake_kept (m : Nat) (hi lo : Bool) (s : State) :
    (State.monTake m hi lo s).kept = s.kept := by
  unfold State.monTake; simp

@[simp] theorem State.monReact_kept (m : Nat) (hi lo : Bool) (s : State) :
    (State.monReact m hi lo s).kept = s.kept := by
  unfold State.monReact
  repeat' first
    | with_reducible rfl
    | with_reducible assumption
    | (unfold x; clear x)
    | with_reducible refine keep_ite (fun _ => ?_) (fun _ => ?_)
    | (extract_lets +onlyGivenNames x; refine (show x.kept = s.kept → _ from ?_) ?_; clear_value x; intro hx)
    | (extract_lets +onlyGivenNames x; clear_value x)
    | (simp [*]; done)
    | with_reducible refine (State.each_kept _ _ (fun i s => ?_) _).trans ?_
    | with_reducible refine (foldl_kept _ (fun s i => ?_) _ _).trans ?_
    | (split; all_goals try (rename_i hx; replace hx := (congrArg (fun z => (Prod.snd z).kept) hx).symm; simp [*] at hx))

@[simp] theorem State.monTrip_kept (m : Nat) (v : Word) (s : State) :
    (State.monTrip m v s).kept = s.kept := by
  unfold State.monTrip; simp

@[simp] theorem State.monReturn_kept (m : Nat) (v : Word) (s : State) :
    (State.monReturn m v s).kept = s.kept := by
  unfold State.monReturn; simp

@[simp] theorem State.monSettle_kept (m : Nat) (v : Word) (s : State) :
    (State.monSettle m v s).kept = s.kept := by
  unfold State.monSettle; simp

@[simp] theorem State.monBlankEnd_kept (m : Nat) (s : State) :
    (State.monBlankEnd m s).kept = s.kept := by
  unfold State.monBlankEnd
  repeat' first
    | with_reducible rfl
    | with_reducible assumption
    | (unfold x; clear x)
    | with_reducible refine keep_ite (fun _ => ?_) (fun _ => ?_)
    | (extract_lets +onlyGivenNames x; refine (show x.kept = s.kept → _ from ?_) ?_; clear_value x; intro hx)
    | (extract_lets +onlyGivenNames x; clear_value x)
    | (simp [*]; done)
    | with_reducible refine (State.each_kept _ _ (fun i s => ?_) _).trans ?_
    | with_reducible refine (foldl_kept _ (fun s i => ?_) _ _).trans ?_
    | (split; all_goals try (rename_i hx; replace hx := (congrArg (fun z => (Prod.snd z).kept) hx).symm; simp [*] at hx))

@[simp] theorem State.monClear_kept (m : Nat) (s : State) :
    (State.monClear m s).kept = s.kept := by
  unfold State.monClear; simp

@[simp] theorem State.monPeriodEnd_kept (m : Nat) (s : State) :
    (State.monPeriodEnd m s).kept = s.kept := by
  unfold State.monPeriodEnd; simp

@[simp] theorem State.monPattern_kept (g : Nat) (s : State) :
    (State.monPattern g s).kept = s.kept := by
  unfold State.monPattern; simp

@[simp] theorem State.monRamp_kept (m : Nat) (s : State) :
    (State.monRamp m s).kept = s.kept := by
  unfold State.monRamp; simp

@[simp] theorem State.monMark_kept (b : Nat) (s : State) :
    (State.monMark b s).kept = s.kept := by
  unfold State.monMark; simp

@[simp] theorem State.monRampStep_kept (m : Nat) (s : State) :
    (State.monRampStep m s).kept = s.kept := by
  unfold State.monRampStep; simp

@[simp] theorem State.monRefuse_kept (code off : Nat) (s : State) :
    (State.monRefuse code off s).kept = s.kept := by
  simp [State.kept, State.monRefuse]

@[simp] theorem State.monBlank_kept (m : Nat) (s : State) :
    (State.monBlank m s).kept = s.kept := by
  unfold State.monBlank; simp

@[simp] theorem State.monCfgWrite_kept (m : Nat) (v : Word) (s : State) :
    (State.monCfgWrite m v s).kept = s.kept := by
  unfold State.monCfgWrite; simp

@[simp] theorem State.monWrite_kept (m off : Nat) (v : Word) (s : State) : (State.monWrite m off v s).kept = s.kept := by
  unfold State.monWrite
  extract_lets +onlyGivenNames x full put
  have k (c : Nat) (f : Mon → Mon) : (put c f).kept = s.kept := by simp only [put]; split <;> simp
  clear_value put
  split
  · exact k _ _
  · exact k _ _
  · exact k _ _
  · exact k _ _
  · exact k _ _
  · dsimp only
    split
    · simp
    · split <;> simp
  · rfl

@[simp] theorem State.monPeriodWrite_kept (m : Nat) (v : Word) (s : State) :
    (State.monPeriodWrite m v s).kept = s.kept := by
  unfold State.monPeriodWrite; simp

@[simp] theorem State.monStatusWrite_kept (m : Nat) (v : Word) (s : State) :
    (State.monStatusWrite m v s).kept = s.kept := by
  unfold State.monStatusWrite; simp

@[simp] theorem State.monCheck_kept (m : Nat) (s : State) :
    (State.monCheck m s).2.2.kept = s.kept := by
  unfold State.monCheck
  repeat' first
    | with_reducible rfl
    | with_reducible assumption
    | (unfold x; clear x)
    | with_reducible refine keep_ite (fun _ => ?_) (fun _ => ?_)
    | (extract_lets +onlyGivenNames x; refine (show x.kept = s.kept → _ from ?_) ?_; clear_value x; intro hx)
    | (extract_lets +onlyGivenNames x; clear_value x)
    | (simp [*]; done)
    | with_reducible refine (State.each_kept _ _ (fun i s => ?_) _).trans ?_
    | with_reducible refine (foldl_kept _ (fun s i => ?_) _ _).trans ?_
    | (split; all_goals try (rename_i hx; replace hx := (congrArg (fun z => (Prod.snd z).kept) hx).symm; simp [*] at hx))

@[simp] theorem State.monStatus_kept (m : Nat) (s : State) :
    (State.monStatus m s).2.kept = s.kept := by
  unfold State.monStatus; simp

end Sys2Proof.Machine

namespace Sys2Proof.Machine

@[simp] theorem State.segOpenAt_kept (l b : Nat) (s : State) :
    (State.segOpenAt l b s).kept = s.kept := by
  unfold State.segOpenAt; simp

@[simp] theorem State.pinLandings_kept (b : Nat) (all : Bool) (s : State) :
    (State.pinLandings b all s).kept = s.kept := by
  unfold State.pinLandings; simp

@[simp] theorem State.setProd_kept (b v : Nat) (s : State) :
    (State.setProd b v s).kept = s.kept := by
  unfold State.setProd; simp

@[simp] theorem State.prodRefuse_kept (b : Nat) (s : State) :
    (State.prodRefuse b s).kept = s.kept := by
  unfold State.prodRefuse; simp

@[simp] theorem State.prodWrite_kept (b : Nat) (v : Option Nat) (s : State) :
    (State.prodWrite b v s).kept = s.kept := by
  unfold State.prodWrite
  repeat' first
    | with_reducible rfl
    | with_reducible assumption
    | (unfold x; clear x)
    | with_reducible refine keep_ite (fun _ => ?_) (fun _ => ?_)
    | (extract_lets +onlyGivenNames x; refine (show x.kept = s.kept → _ from ?_) ?_; clear_value x; intro hx)
    | (extract_lets +onlyGivenNames x; clear_value x)
    | (simp [*]; done)
    | with_reducible refine (State.each_kept _ _ (fun i s => ?_) _).trans ?_
    | with_reducible refine (foldl_kept _ (fun s i => ?_) _ _).trans ?_
    | (split; all_goals try (rename_i hx; replace hx := (congrArg (fun z => (Prod.snd z).kept) hx).symm; simp [*] at hx))

@[simp] theorem State.rewind_kept (b : Nat) (s : State) :
    (State.rewind b s).kept = s.kept := by
  unfold State.rewind; simp

@[simp] theorem State.markEos_kept (b : Nat) (s : State) :
    (State.markEos b s).kept = s.kept := by
  unfold State.markEos; simp

@[simp] theorem State.strmCtrl_kept (b : Nat) (v : Word) (s : State) :
    (State.strmCtrl b v s).kept = s.kept := by
  unfold State.strmCtrl; simp

@[simp] theorem State.strmStart_kept (b : Nat) (s : State) :
    (State.strmStart b s).kept = s.kept := by
  unfold State.strmStart; simp

@[simp] theorem State.strmLost_kept (b : Nat) (s : State) :
    (State.strmLost b s).kept = s.kept := by
  unfold State.strmLost; simp

@[simp] theorem State.strmAbort_kept (b : Nat) (s : State) :
    (State.strmAbort b s).kept = s.kept := by
  unfold State.strmAbort; simp

@[simp] theorem State.markUr_kept (b : Nat) (s : State) :
    (State.markUr b s).kept = s.kept := by
  unfold State.markUr; simp

@[simp] theorem State.lndRead_kept (b : Nat) (s : State) :
    (State.lndRead b s).2.kept = s.kept := by
  unfold State.lndRead; simp

end Sys2Proof.Machine

namespace Sys2Proof.Machine

@[simp] theorem State.gangMod_kept (g : Nat) (f : Bench → Bench) (s : State) :
    (State.gangMod g f s).kept = s.kept := by
  unfold State.gangMod; simp

@[simp] theorem State.gangSeq_kept (g : Nat) (f : Seq → Seq) (s : State) :
    (State.gangSeq g f s).kept = s.kept := by
  unfold State.gangSeq; simp

@[simp] theorem State.seqFault_kept (g code addr : Nat) (s : State) :
    (State.seqFault g code addr s).kept = s.kept := by
  unfold State.seqFault; simp

@[simp] theorem State.waitOver_kept (g t : Nat) (f : Seq → Seq) (s : State) :
    (State.waitOver g t f s).kept = s.kept := by
  unfold State.waitOver; simp

@[simp] theorem State.release'_kept (g t : Nat) (s : State) :
    (State.release' g t s).kept = s.kept := by
  unfold State.release'
  repeat' first
    | with_reducible rfl
    | with_reducible assumption
    | (unfold x; clear x)
    | with_reducible refine keep_ite (fun _ => ?_) (fun _ => ?_)
    | (extract_lets +onlyGivenNames x; refine (show x.kept = s.kept → _ from ?_) ?_; clear_value x; intro hx)
    | (extract_lets +onlyGivenNames x; clear_value x)
    | (simp [*]; done)
    | with_reducible refine (State.each_kept _ _ (fun i s => ?_) _).trans ?_
    | with_reducible refine (foldl_kept _ (fun s i => ?_) _ _).trans ?_
    | (split; all_goals try (rename_i hx; replace hx := (congrArg (fun z => (Prod.snd z).kept) hx).symm; simp [*] at hx))

@[simp] theorem State.timeout'_kept (g : Nat) (s : State) :
    (State.timeout' g s).kept = s.kept := by
  unfold State.timeout'; simp

@[simp] theorem State.syncOver_kept (g : Nat) (s : State) :
    (State.syncOver g s).kept = s.kept := by
  unfold State.syncOver; simp

@[simp] theorem State.settleWait_kept (g : Nat) (s : State) :
    (State.settleWait g s).kept = s.kept := by
  unfold State.settleWait; simp

@[simp] theorem State.endShort_kept (g : Nat) (s : State) :
    (State.endShort g s).kept = s.kept := by
  unfold State.endShort; simp

@[simp] theorem State.takeEvent_kept (g i ret rem : Nat) (s : State) :
    (State.takeEvent g i ret rem s).kept = s.kept := by
  unfold State.takeEvent; simp

@[simp] theorem State.chooseWord_kept (g a resume : Nat) (s : State) :
    (State.chooseWord g a resume s).2.kept = s.kept := by
  unfold State.chooseWord; simp

@[simp] theorem State.goOn_kept (g : Nat) (p : Pick) (s : State) :
    (State.goOn g p s).2.kept = s.kept := by
  unfold State.goOn; simp

@[simp] theorem State.pick_kept (g : Nat) (s : State) :
    (State.pick g s).2.kept = s.kept := by
  unfold State.pick
  repeat' first
    | with_reducible rfl
    | with_reducible assumption
    | (unfold x; clear x)
    | with_reducible refine keep_ite (fun _ => ?_) (fun _ => ?_)
    | (extract_lets +onlyGivenNames x; refine (show x.kept = s.kept → _ from ?_) ?_; clear_value x; intro hx)
    | (extract_lets +onlyGivenNames x; clear_value x)
    | (simp [*]; done)
    | with_reducible refine (State.each_kept _ _ (fun i s => ?_) _).trans ?_
    | with_reducible refine (foldl_kept _ (fun s i => ?_) _ _).trans ?_
    | (split; all_goals try (rename_i hx; replace hx := (congrArg (fun z => (Prod.snd z).kept) hx).symm; simp [*] at hx))

@[simp] theorem State.benchBeat_kept (e : BeatSpec) (n bw t0 : Nat) (moved : Bool) (cuts : List (Word × Word)) (b : Nat) (s : State) :
    (State.benchBeat e n bw t0 moved cuts b s).kept = s.kept := by
  unfold State.benchBeat; simp

@[simp] theorem State.playBeat_kept (g : Nat) (e : BeatSpec) (s : State) :
    (State.playBeat g e s).kept = s.kept := by
  unfold State.playBeat; simp

@[simp] theorem State.keepalive_kept (g : Nat) (short : List Nat) (s : State) :
    (State.keepalive g short s).kept = s.kept := by
  unfold State.keepalive; simp

@[simp] theorem State.issueWord_kept (g : Nat) (p : Pick) (s : State) :
    (State.issueWord g p s).kept = s.kept := by
  unfold State.issueWord; simp

@[simp] theorem State.meetHorizon_kept (g : Nat) (p : Pick) (s : State) :
    (State.meetHorizon g p s).kept = s.kept := by
  unfold State.meetHorizon; simp

@[simp] theorem State.playPick_kept (g : Nat) (p : Pick) (s : State) :
    (State.playPick g p s).kept = s.kept := by
  unfold State.playPick; simp

@[simp] theorem State.issueIf_kept (g : Nat) (want : State → Pick → Bool) (s : State) :
    (State.issueIf g want s).kept = s.kept := by
  unfold State.issueIf
  repeat' first
    | with_reducible rfl
    | with_reducible assumption
    | (unfold x; clear x)
    | with_reducible refine keep_ite (fun _ => ?_) (fun _ => ?_)
    | (extract_lets +onlyGivenNames x; refine (show x.kept = s.kept → _ from ?_) ?_; clear_value x; intro hx)
    | (extract_lets +onlyGivenNames x; clear_value x)
    | (simp [*]; done)
    | with_reducible refine (State.each_kept _ _ (fun i s => ?_) _).trans ?_
    | with_reducible refine (foldl_kept _ (fun s i => ?_) _ _).trans ?_
    | (split; all_goals try (rename_i hx; replace hx := (congrArg (fun z => (Prod.snd z).kept) hx).symm; simp [*] at hx))

@[simp] theorem State.issueOp_kept (g op : Nat) (s : State) :
    (State.issueOp g op s).kept = s.kept := by
  unfold State.issueOp; simp

@[simp] theorem State.keepaliveBeat_kept (g : Nat) (s : State) :
    (State.keepaliveBeat g s).kept = s.kept := by
  unfold State.keepaliveBeat; simp

@[simp] theorem State.underrunResume_kept (g : Nat) (s : State) :
    (State.underrunResume g s).kept = s.kept := by
  unfold State.underrunResume; simp

@[simp] theorem State.stallEnd_kept (g : Nat) (s : State) :
    (State.stallEnd g s).kept = s.kept := by
  unfold State.stallEnd
  repeat' first
    | with_reducible rfl
    | with_reducible assumption
    | (unfold x; clear x)
    | with_reducible refine keep_ite (fun _ => ?_) (fun _ => ?_)
    | (extract_lets +onlyGivenNames x; refine (show x.kept = s.kept → _ from ?_) ?_; clear_value x; intro hx)
    | (extract_lets +onlyGivenNames x; clear_value x)
    | (simp [*]; done)
    | with_reducible refine (State.each_kept _ _ (fun i s => ?_) _).trans ?_
    | with_reducible refine (foldl_kept _ (fun s i => ?_) _ _).trans ?_
    | (split; all_goals try (rename_i hx; replace hx := (congrArg (fun z => (Prod.snd z).kept) hx).symm; simp [*] at hx))

@[simp] theorem State.waitRelease_kept (g : Nat) (s : State) :
    (State.waitRelease g s).kept = s.kept := by
  unfold State.waitRelease
  repeat' first
    | with_reducible rfl
    | with_reducible assumption
    | (unfold x; clear x)
    | with_reducible refine keep_ite (fun _ => ?_) (fun _ => ?_)
    | (extract_lets +onlyGivenNames x; refine (show x.kept = s.kept → _ from ?_) ?_; clear_value x; intro hx)
    | (extract_lets +onlyGivenNames x; clear_value x)
    | (simp [*]; done)
    | with_reducible refine (State.each_kept _ _ (fun i s => ?_) _).trans ?_
    | with_reducible refine (foldl_kept _ (fun s i => ?_) _ _).trans ?_
    | (split; all_goals try (rename_i hx; replace hx := (congrArg (fun z => (Prod.snd z).kept) hx).symm; simp [*] at hx))

@[simp] theorem State.waitTimeout_kept (g : Nat) (s : State) :
    (State.waitTimeout g s).kept = s.kept := by
  unfold State.waitTimeout; simp

@[simp] theorem State.syncRelease_kept (g : Nat) (s : State) :
    (State.syncRelease g s).kept = s.kept := by
  unfold State.syncRelease; simp

@[simp] theorem State.arm_kept (g e : Nat) (s : State) :
    (State.arm g e s).kept = s.kept := by
  unfold State.arm; simp

@[simp] theorem State.gangStart_kept (g : Nat) (s : State) :
    (State.gangStart g s).kept = s.kept := by
  unfold State.gangStart
  repeat' first
    | with_reducible rfl
    | with_reducible assumption
    | (unfold x; clear x)
    | with_reducible refine keep_ite (fun _ => ?_) (fun _ => ?_)
    | (extract_lets +onlyGivenNames x; refine (show x.kept = s.kept → _ from ?_) ?_; clear_value x; intro hx)
    | (extract_lets +onlyGivenNames x; clear_value x)
    | (simp [*]; done)
    | with_reducible refine (State.each_kept _ _ (fun i s => ?_) _).trans ?_
    | with_reducible refine (foldl_kept _ (fun s i => ?_) _ _).trans ?_
    | (split; all_goals try (rename_i hx; replace hx := (congrArg (fun z => (Prod.snd z).kept) hx).symm; simp [*] at hx))

end Sys2Proof.Machine

namespace Sys2Proof.Machine

@[simp] theorem State.pinBeat_kept (b : Nat) (vs : List Vec) (l : Nat) (s : State) :
    (State.pinBeat b vs l s).kept = s.kept := by
  unfold State.pinBeat; simp

@[simp] theorem State.benchPins_kept (g t b : Nat) (s : State) :
    (State.benchPins g t b s).kept = s.kept := by
  unfold State.benchPins
  repeat' first
    | with_reducible rfl
    | with_reducible assumption
    | (unfold x; clear x)
    | with_reducible refine keep_ite (fun _ => ?_) (fun _ => ?_)
    | (extract_lets +onlyGivenNames x; refine (show x.kept = s.kept → _ from ?_) ?_; clear_value x; intro hx)
    | (extract_lets +onlyGivenNames x; clear_value x)
    | (simp [*]; done)
    | with_reducible refine (State.each_kept _ _ (fun i s => ?_) _).trans ?_
    | with_reducible refine (foldl_kept _ (fun s i => ?_) _ _).trans ?_
    | (split; all_goals try (rename_i hx; replace hx := (congrArg (fun z => (Prod.snd z).kept) hx).symm; simp [*] at hx))

@[simp] theorem State.markBench_kept (m : BitVec 8) (b : Nat) (s : State) :
    (State.markBench m b s).kept = s.kept := by
  unfold State.markBench; simp

@[simp] theorem State.beatZero_kept (g : Nat) (s : State) :
    (State.beatZero g s).kept = s.kept := by
  unfold State.beatZero; simp

@[simp] theorem State.eventRecord_kept (g n code : Nat) (s : State) :
    (State.eventRecord g n code s).kept = s.kept := by
  unfold State.eventRecord; simp

@[simp] theorem State.cycleStart_kept (g : Nat) (s : State) :
    (State.cycleStart g s).kept = s.kept := by
  unfold State.cycleStart
  repeat' first
    | with_reducible rfl
    | with_reducible assumption
    | (unfold x; clear x)
    | with_reducible refine keep_ite (fun _ => ?_) (fun _ => ?_)
    | (extract_lets +onlyGivenNames x; refine (show x.kept = s.kept → _ from ?_) ?_; clear_value x; intro hx)
    | (extract_lets +onlyGivenNames x; clear_value x)
    | (simp [*]; done)
    | with_reducible refine (State.each_kept _ _ (fun i s => ?_) _).trans ?_
    | with_reducible refine (foldl_kept _ (fun s i => ?_) _ _).trans ?_
    | (split; all_goals try (rename_i hx; replace hx := (congrArg (fun z => (Prod.snd z).kept) hx).symm; simp [*] at hx))

end Sys2Proof.Machine

namespace Sys2Proof.Machine

@[simp] theorem State.loadBenchAt_rest (i : Image) (deskew : Bool) (b : Nat) (s : State) :
    (State.loadBenchAt i deskew b s).kept.rest = s.kept.rest := by
  unfold State.loadBenchAt; simp

@[simp] theorem State.loadBenchAt_still (i : Image) (deskew : Bool) (b : Nat) (s : State) :
    (State.loadBenchAt i deskew b s).kept.still = s.kept.still :=
  State.still_of_rest (by simp)

@[simp] theorem State.loadImage_still (i : Image) (deskew : Bool) (s : State) :
    (State.loadImage i deskew s).kept.still = s.kept.still := by
  unfold State.loadImage
  extract_lets +onlyGivenNames gangs sites t
  have h : t.kept.still = s.kept.still := rfl
  clear_value t
  simpa using h

@[simp] theorem State.imgNotice_kept (s : State) :
    (State.imgNotice s).kept = s.kept := by
  unfold State.imgNotice; simp

@[simp] theorem State.bootEnd_kept (code : Nat) (s : State) :
    (State.bootEnd code s).kept = s.kept := by
  unfold State.bootEnd; simp

@[simp] theorem State.flashBursts_kept (n : Nat) (s : State) : (State.flashBursts n s).kept = s.kept := rfl

@[simp] theorem State.flashEnd_kept (s : State) : (State.flashEnd s).kept = s.kept := rfl

@[simp] theorem State.commitNotice_kept (s : State) : (State.commitNotice s).kept = s.kept := by
  unfold State.commitNotice; simp

@[simp] theorem State.loadBegin_kept (flash : Bool) (a n : Nat) (s : State) :
    (State.loadBegin flash a n s).kept = s.kept := by
  unfold State.loadBegin; simp

@[simp] theorem State.checkBegin_kept (s : State) :
    (State.checkBegin s).kept = s.kept := by
  unfold State.checkBegin; simp

@[simp] theorem State.commitTry_rest (s : State) :
    (State.commitTry s).kept.rest = s.kept.rest := by
  unfold State.commitTry
  repeat' first
    | with_reducible rfl
    | with_reducible assumption
    | (unfold x; clear x)
    | with_reducible refine keepRest_ite (fun _ => ?_) (fun _ => ?_)
    | (extract_lets +onlyGivenNames x; refine (show x.kept.rest = s.kept.rest → _ from ?_) ?_; clear_value x; intro hx)
    | (extract_lets +onlyGivenNames x; clear_value x)
    | (simp [*]; done)
    | with_reducible refine (State.each_rest _ _ (fun i s => ?_) _).trans ?_
    | with_reducible refine (foldl_rest _ (fun s i => ?_) _ _).trans ?_
    | (split; all_goals try (rename_i hx; replace hx := (congrArg (fun z => (Prod.snd z).kept.rest) hx).symm; simp [*] at hx))

@[simp] theorem State.commitTry_still (s : State) :
    (State.commitTry s).kept.still = s.kept.still :=
  State.still_of_rest (by simp)

@[simp] theorem State.imgCtrl_rest (v : Word) (s : State) :
    (State.imgCtrl v s).kept.rest = s.kept.rest := by
  unfold State.imgCtrl
  repeat' first
    | with_reducible rfl
    | with_reducible assumption
    | (unfold x; clear x)
    | with_reducible refine keepRest_ite (fun _ => ?_) (fun _ => ?_)
    | (extract_lets +onlyGivenNames x; refine (show x.kept.rest = s.kept.rest → _ from ?_) ?_; clear_value x; intro hx)
    | (extract_lets +onlyGivenNames x; clear_value x)
    | (simp [*]; done)
    | with_reducible refine (State.each_rest _ _ (fun i s => ?_) _).trans ?_
    | with_reducible refine (foldl_rest _ (fun s i => ?_) _ _).trans ?_
    | (split; all_goals try (rename_i hx; replace hx := (congrArg (fun z => (Prod.snd z).kept.rest) hx).symm; simp [*] at hx))

@[simp] theorem State.imgCtrl_still (v : Word) (s : State) :
    (State.imgCtrl v s).kept.still = s.kept.still :=
  State.still_of_rest (by simp)

@[simp] theorem State.loadDone_kept (copied : Option Container) (s : State) :
    (State.loadDone copied s).kept = s.kept := by
  unfold State.loadDone
  repeat' first
    | with_reducible rfl
    | with_reducible assumption
    | (unfold x; clear x)
    | with_reducible refine keep_ite (fun _ => ?_) (fun _ => ?_)
    | (extract_lets +onlyGivenNames x; refine (show x.kept = s.kept → _ from ?_) ?_; clear_value x; intro hx)
    | (extract_lets +onlyGivenNames x; clear_value x)
    | (simp [*]; done)
    | with_reducible refine (State.each_kept _ _ (fun i s => ?_) _).trans ?_
    | with_reducible refine (foldl_kept _ (fun s i => ?_) _ _).trans ?_
    | (split; all_goals try (rename_i hx; replace hx := (congrArg (fun z => (Prod.snd z).kept) hx).symm; simp [*] at hx))

@[simp] theorem State.checkDone_rest (s : State) :
    (State.checkDone s).kept.rest = s.kept.rest := by
  unfold State.checkDone
  repeat' first
    | with_reducible rfl
    | with_reducible assumption
    | (unfold x; clear x)
    | with_reducible refine keepRest_ite (fun _ => ?_) (fun _ => ?_)
    | (extract_lets +onlyGivenNames x; refine (show x.kept.rest = s.kept.rest → _ from ?_) ?_; clear_value x; intro hx)
    | (extract_lets +onlyGivenNames x; clear_value x)
    | (simp [*]; done)
    | with_reducible refine (State.each_rest _ _ (fun i s => ?_) _).trans ?_
    | with_reducible refine (foldl_rest _ (fun s i => ?_) _ _).trans ?_
    | (split; all_goals try (rename_i hx; replace hx := (congrArg (fun z => (Prod.snd z).kept.rest) hx).symm; simp [*] at hx))

@[simp] theorem State.checkDone_still (s : State) :
    (State.checkDone s).kept.still = s.kept.still :=
  State.still_of_rest (by simp)

@[simp] theorem State.commitDone_still (s : State) : (State.commitDone s).kept.still = s.kept.still := by
  unfold State.commitDone
  split
  · split
    · rfl
    · extract_lets +onlyGivenNames t u
      have h : t.kept.still = s.kept.still := by simp [t]
      have k : u.kept.still = s.kept.still := by simp [u, h]
      clear_value u
      simpa using k
  · rfl

@[simp] theorem State.modStg_kept (p : Nat) (f : StgPort → StgPort) (s : State) :
    (State.modStg p f s).kept = s.kept := by
  unfold State.modStg; simp

@[simp] theorem State.stgPush_kept (p : Nat) (s : State) :
    (State.stgPush p s).kept = s.kept := by
  unfold State.stgPush; simp

@[simp] theorem State.stgClear_kept (p : Nat) (s : State) :
    (State.stgClear p s).kept = s.kept := by
  unfold State.stgClear; simp

@[simp] theorem State.stgCtrl_kept (p : Nat) (v : Word) (s : State) :
    (State.stgCtrl p v s).kept = s.kept := by
  unfold State.stgCtrl; simp

end Sys2Proof.Machine

namespace Sys2Proof.Machine

@[simp] theorem State.applyTake_kept (p : Nat) (j : Job) (s : State) :
    (State.applyTake p j s).kept = s.kept := by
  unfold State.applyTake
  repeat' first
    | with_reducible rfl
    | with_reducible assumption
    | (unfold x; clear x)
    | with_reducible refine keep_ite (fun _ => ?_) (fun _ => ?_)
    | (extract_lets +onlyGivenNames x; refine (show x.kept = s.kept → _ from ?_) ?_; clear_value x; intro hx)
    | (extract_lets +onlyGivenNames x; clear_value x)
    | (simp [*]; done)
    | with_reducible refine (State.each_kept _ _ (fun i s => ?_) _).trans ?_
    | with_reducible refine (foldl_kept _ (fun s i => ?_) _ _).trans ?_
    | (split; all_goals try (rename_i hx; replace hx := (congrArg (fun z => (Prod.snd z).kept) hx).symm; simp [*] at hx))

@[simp] theorem State.applyStart_kept (p : Nat) (j : Job) (s : State) : (State.applyStart p j s).kept = s.kept := by
  unfold State.applyStart
  extract_lets +onlyGivenNames gs bad
  generalize bad = r
  rcases r with _ | ⟨r, code, item, bench⟩ <;> simp

@[simp] theorem State.applyArm_kept (p : Nat) (tag : BitVec 16) (s : State) :
    (State.applyArm p tag s).kept = s.kept := by
  unfold State.applyArm
  repeat' first
    | with_reducible rfl
    | with_reducible assumption
    | (unfold x; clear x)
    | with_reducible refine keep_ite (fun _ => ?_) (fun _ => ?_)
    | (extract_lets +onlyGivenNames x; refine (show x.kept = s.kept → _ from ?_) ?_; clear_value x; intro hx)
    | (extract_lets +onlyGivenNames x; clear_value x)
    | (simp [*]; done)
    | with_reducible refine (State.each_kept _ _ (fun i s => ?_) _).trans ?_
    | with_reducible refine (foldl_kept _ (fun s i => ?_) _ _).trans ?_
    | (split; all_goals try (rename_i hx; replace hx := (congrArg (fun z => (Prod.snd z).kept) hx).symm; simp [*] at hx))

end Sys2Proof.Machine

namespace Sys2Proof.Machine

@[simp] theorem State.violate_kept (p addr : Nat) (s : State) :
    (State.violate p addr s).kept = s.kept := by
  unfold State.violate; simp

@[simp] theorem State.unmapped_kept (p : Nat) (s : State) :
    (State.unmapped p s).kept = s.kept := by
  unfold State.unmapped; simp

@[simp] theorem State.apertureFlags_kept (p a n : Nat) (s : State) :
    (State.apertureFlags p a n s).kept = s.kept := by
  unfold State.apertureFlags
  repeat' first
    | with_reducible rfl
    | with_reducible assumption
    | (unfold x; clear x)
    | with_reducible refine keep_ite (fun _ => ?_) (fun _ => ?_)
    | (extract_lets +onlyGivenNames x; refine (show x.kept = s.kept → _ from ?_) ?_; clear_value x; intro hx)
    | (extract_lets +onlyGivenNames x; clear_value x)
    | (simp [*]; done)
    | with_reducible refine (State.each_kept _ _ (fun i s => ?_) _).trans ?_
    | with_reducible refine (State.startJob_kept _ _ _ _ (fun j s => ?_) _).trans ?_
    | with_reducible refine (foldl_kept _ (fun s i => ?_) _ _).trans ?_
    | (split; all_goals try (rename_i hx; replace hx := (congrArg (fun z => (Prod.snd z).kept) hx).symm; simp [*] at hx))

@[simp] theorem State.apertureRead_kept (p a n : Nat) (s : State) :
    (State.apertureRead p a n s).kept = s.kept := by
  unfold State.apertureRead; simp

@[simp] theorem State.apertureWrite_rest (p a : Nat) (bs : List Byte) (s : State) :
    (State.apertureWrite p a bs s).kept.rest = s.kept.rest := by
  unfold State.apertureWrite; simp

@[simp] theorem State.apertureWrite_still (p a : Nat) (bs : List Byte) (s : State) :
    (State.apertureWrite p a bs s).kept.still = s.kept.still :=
  State.still_of_rest (by simp)

@[simp] theorem State.linkUp_kept (p : Nat) (w : BitVec 5) (v : BitVec 4) (s : State) :
    (State.linkUp p w v s).kept = s.kept := by
  unfold State.linkUp; simp

@[simp] theorem State.abandonJobs_kept (p : Nat) (s : State) :
    (State.abandonJobs p s).kept = s.kept := by
  unfold State.abandonJobs; simp

@[simp] theorem State.holdPart_kept (q code : Nat) (s : State) :
    (State.holdPart q code s).kept = s.kept := by
  unfold State.holdPart; simp

@[simp] theorem State.portLoss_kept (p : Nat) (s : State) :
    (State.portLoss p s).kept = s.kept := by
  unfold State.portLoss; simp

@[simp] theorem State.cfgErr_kept (p : Nat) (s : State) :
    (State.cfgErr p s).kept = s.kept := by
  unfold State.cfgErr; simp

@[simp] theorem State.queueCtrl_kept (p : Nat) (v : Word) (s : State) :
    (State.queueCtrl p v s).kept = s.kept := by
  unfold State.queueCtrl; simp

@[simp] theorem State.quiesceDone_kept (p : Nat) (s : State) :
    (State.quiesceDone p s).kept = s.kept := by
  unfold State.quiesceDone; simp

@[simp] theorem State.sqTailWrite_kept (p : Nat) (v : Word) (s : State) :
    (State.sqTailWrite p v s).kept = s.kept := by
  unfold State.sqTailWrite; simp

@[simp] theorem State.fetchDescriptor_kept (p : Nat) (ws : List Word) (s : State) :
    (State.fetchDescriptor p ws s).kept = s.kept := by
  unfold State.fetchDescriptor; simp

@[simp] theorem State.startJob_kept (p : Nat) (tag : BitVec 16) (want : Job → Bool) (f : Job → State → State)
    (h : ∀ j t, (f j t).kept = t.kept) (s : State) : (s.startJob p tag want f).kept = s.kept := by
  unfold State.startJob
  split
  · rfl
  split
  · rfl
  split
  · simp
  split
  · simp
  split
  · simp
  exact h _ _

@[simp] theorem State.startJob_rest (p : Nat) (tag : BitVec 16) (want : Job → Bool) (f : Job → State → State)
    (h : ∀ j t, (f j t).kept.rest = t.kept.rest) (s : State) : (s.startJob p tag want f).kept.rest = s.kept.rest := by
  unfold State.startJob
  split
  · rfl
  split
  · rfl
  split
  · simp
  split
  · simp
  split
  · simp
  exact h _ _

@[simp] theorem State.jobRuns_kept (p : Nat) (tag : BitVec 16) (s : State) :
    (State.jobRuns p tag s).kept = s.kept := by
  unfold State.jobRuns; simp

@[simp] theorem State.clearBitmaps_rest (gs : List Nat) (s : State) : (State.clearBitmaps gs s).kept.rest = s.kept.rest := by
  unfold State.clearBitmaps
  refine State.each_rest _ _ (fun i t => ?_) _
  dsimp only
  split <;> simp

@[simp] theorem State.clearBitmaps_still (gs : List Nat) (s : State) :
    (State.clearBitmaps gs s).kept.still = s.kept.still :=
  State.still_of_rest (by simp)

@[simp] theorem State.runStart_rest (p : Nat) (tag : BitVec 16) (s : State) :
    (State.runStart p tag s).kept.rest = s.kept.rest := by
  unfold State.runStart
  refine State.startJob_rest _ _ _ _ (fun j s => ?_) _
  extract_lets +onlyGivenNames gs guy clear
  have k (t : State) : (clear t).kept.rest = t.kept.rest := by simp only [clear]; split <;> simp
  clear_value clear
  split
  · simp
  split
  · split <;> simp [k]
  split
  · simp
  extract_lets +onlyGivenNames e
  split <;> simp [k]

@[simp] theorem State.runStart_still (p : Nat) (tag : BitVec 16) (s : State) :
    (State.runStart p tag s).kept.still = s.kept.still :=
  State.still_of_rest (by simp)

@[simp] theorem State.abortWaiting_kept (p : Nat) (gs : List Nat) (s : State) :
    (State.abortWaiting p gs s).kept = s.kept := by
  unfold State.abortWaiting; simp

@[simp] theorem State.runStop_kept (p : Nat) (tag : BitVec 16) (s : State) :
    (State.runStop p tag s).kept = s.kept := by
  unfold State.runStop
  repeat' first
    | with_reducible rfl
    | with_reducible assumption
    | (unfold x; clear x)
    | with_reducible refine keep_ite (fun _ => ?_) (fun _ => ?_)
    | (extract_lets +onlyGivenNames x; refine (show x.kept = s.kept → _ from ?_) ?_; clear_value x; intro hx)
    | (extract_lets +onlyGivenNames x; clear_value x)
    | (simp [*]; done)
    | with_reducible refine (State.each_kept _ _ (fun i s => ?_) _).trans ?_
    | with_reducible refine (State.startJob_kept _ _ _ _ (fun j s => ?_) _).trans ?_
    | with_reducible refine (foldl_kept _ (fun s i => ?_) _ _).trans ?_
    | (split; all_goals try (rename_i hx; replace hx := (congrArg (fun z => (Prod.snd z).kept) hx).symm; simp [*] at hx))

@[simp] theorem State.dmaError_kept (p : Nat) (tag : BitVec 16) (n : Nat) (s : State) :
    (State.dmaError p tag n s).kept = s.kept := by
  unfold State.dmaError; simp

@[simp] theorem State.streamMove_rest (p : Nat) (tag : BitVec 16) (data : Option (List Byte)) (s : State) :
    (State.streamMove p tag data s).kept.rest = s.kept.rest := by
  unfold State.streamMove
  repeat' first
    | with_reducible rfl
    | with_reducible assumption
    | (unfold x; clear x)
    | with_reducible refine keepRest_ite (fun _ => ?_) (fun _ => ?_)
    | (extract_lets +onlyGivenNames x; refine (show x.kept.rest = s.kept.rest → _ from ?_) ?_; clear_value x; intro hx)
    | (extract_lets +onlyGivenNames x; clear_value x)
    | (simp [*]; done)
    | with_reducible refine (State.each_rest _ _ (fun i s => ?_) _).trans ?_
    | with_reducible refine (State.startJob_rest _ _ _ _ (fun j s => ?_) _).trans ?_
    | with_reducible refine (foldl_rest _ (fun s i => ?_) _ _).trans ?_
    | (split; all_goals try (rename_i hx; replace hx := (congrArg (fun z => (Prod.snd z).kept.rest) hx).symm; simp [*] at hx))

@[simp] theorem State.streamMove_still (p : Nat) (tag : BitVec 16) (data : Option (List Byte)) (s : State) :
    (State.streamMove p tag data s).kept.still = s.kept.still :=
  State.still_of_rest (by simp)

@[simp] theorem State.streamJob_rest (p : Nat) (tag : BitVec 16) (data : Option (List Byte)) (s : State) :
    (State.streamJob p tag data s).kept.rest = s.kept.rest := by
  unfold State.streamJob; simp

@[simp] theorem State.streamJob_still (p : Nat) (tag : BitVec 16) (data : Option (List Byte)) (s : State) :
    (State.streamJob p tag data s).kept.still = s.kept.still :=
  State.still_of_rest (by simp)

@[simp] theorem State.fetchMove_rest (p : Nat) (tag : BitVec 16) (data : Option (List Byte)) (s : State) :
    (State.fetchMove p tag data s).kept.rest = s.kept.rest := by
  unfold State.fetchMove
  repeat' first
    | with_reducible rfl
    | with_reducible assumption
    | (unfold x; clear x)
    | with_reducible refine keepRest_ite (fun _ => ?_) (fun _ => ?_)
    | (extract_lets +onlyGivenNames x; refine (show x.kept.rest = s.kept.rest → _ from ?_) ?_; clear_value x; intro hx)
    | (extract_lets +onlyGivenNames x; clear_value x)
    | (simp [*]; done)
    | with_reducible refine (State.each_rest _ _ (fun i s => ?_) _).trans ?_
    | with_reducible refine (State.startJob_rest _ _ _ _ (fun j s => ?_) _).trans ?_
    | with_reducible refine (foldl_rest _ (fun s i => ?_) _ _).trans ?_
    | (split; all_goals try (rename_i hx; replace hx := (congrArg (fun z => (Prod.snd z).kept.rest) hx).symm; simp [*] at hx))

@[simp] theorem State.fetchMove_still (p : Nat) (tag : BitVec 16) (data : Option (List Byte)) (s : State) :
    (State.fetchMove p tag data s).kept.still = s.kept.still :=
  State.still_of_rest (by simp)

@[simp] theorem State.fetchJob_rest (p : Nat) (tag : BitVec 16) (data : Option (List Byte)) (s : State) :
    (State.fetchJob p tag data s).kept.rest = s.kept.rest := by
  unfold State.fetchJob; simp

@[simp] theorem State.fetchJob_still (p : Nat) (tag : BitVec 16) (data : Option (List Byte)) (s : State) :
    (State.fetchJob p tag data s).kept.still = s.kept.still :=
  State.still_of_rest (by simp)

@[simp] theorem State.resultAt_kept (f : Nat) (cs : List (Nat × Nat)) (s : State) : (State.resultAt f cs s).2.kept = s.kept := by
  induction cs generalizing s with
  | nil => rfl
  | cons c r ih =>
    unfold State.resultAt
    generalize ((s.chan c.1 c.2).adcResults.find? _) = o
    cases o <;> simp [ih]

@[simp] theorem State.measureMove_kept (p : Nat) (tag : BitVec 16) (ok : Bool) (s : State) :
    (State.measureMove p tag ok s).kept = s.kept := by
  unfold State.measureMove
  split
  · rfl
  rename_i j _
  split
  · rfl
  extract_lets +onlyGivenNames cs us f size t
  have k : t.kept = s.kept := by simp [t]
  clear_value t
  split
  rename_i vs u hu
  have := State.resultAt_kept f cs t
  rw [hu] at this
  extract_lets +onlyGivenNames ws bs u2 at_
  have k2 : u2.kept = s.kept := by simpa [u2, k] using this
  clear_value u2
  split
  · simpa using k2
  · simp [k2]

@[simp] theorem State.measureJob_kept (p : Nat) (tag : BitVec 16) (ok : Bool) (s : State) :
    (State.measureJob p tag ok s).kept = s.kept := by
  unfold State.measureJob
  extract_lets +onlyGivenNames r
  split
  · simp
  refine State.startJob_kept _ _ _ _ (fun j s => ?_) _
  extract_lets +onlyGivenNames cs
  split
  · simp
  split
  · simp
  extract_lets +onlyGivenNames us
  split
  · simp
  · simp

@[simp] theorem State.calJob_kept (p : Nat) (tag : BitVec 16) (s : State) :
    (State.calJob p tag s).kept = s.kept := by
  unfold State.calJob
  repeat' first
    | with_reducible rfl
    | with_reducible assumption
    | (unfold x; clear x)
    | with_reducible refine keep_ite (fun _ => ?_) (fun _ => ?_)
    | (extract_lets +onlyGivenNames x; refine (show x.kept = s.kept → _ from ?_) ?_; clear_value x; intro hx)
    | (extract_lets +onlyGivenNames x; clear_value x)
    | (simp [*]; done)
    | with_reducible refine (State.each_kept _ _ (fun i s => ?_) _).trans ?_
    | with_reducible refine (State.startJob_kept _ _ _ _ (fun j s => ?_) _).trans ?_
    | with_reducible refine (foldl_kept _ (fun s i => ?_) _ _).trans ?_
    | (split; all_goals try (rename_i hx; replace hx := (congrArg (fun z => (Prod.snd z).kept) hx).symm; simp [*] at hx))

@[simp] theorem State.calDone_kept (p : Nat) (tag : BitVec 16) (sweeps : List TdrSweep) (s : State) :
    (State.calDone p tag sweeps s).kept = s.kept := by
  unfold State.calDone
  repeat' first
    | with_reducible rfl
    | with_reducible assumption
    | (unfold x; clear x)
    | with_reducible refine keep_ite (fun _ => ?_) (fun _ => ?_)
    | (extract_lets +onlyGivenNames x; refine (show x.kept = s.kept → _ from ?_) ?_; clear_value x; intro hx)
    | (extract_lets +onlyGivenNames x; clear_value x)
    | (simp [*]; done)
    | with_reducible refine (State.each_kept _ _ (fun i s => ?_) _).trans ?_
    | with_reducible refine (State.startJob_kept _ _ _ _ (fun j s => ?_) _).trans ?_
    | with_reducible refine (foldl_kept _ (fun s i => ?_) _ _).trans ?_
    | (split; all_goals try (rename_i hx; replace hx := (congrArg (fun z => (Prod.snd z).kept) hx).symm; simp [*] at hx))

@[simp] theorem State.applyJob_kept (p : Nat) (tag : BitVec 16) (s : State) :
    (State.applyJob p tag s).kept = s.kept := by
  unfold State.applyJob; simp

@[simp] theorem State.reportJob_kept (p : Nat) (tag : BitVec 16) (ok : Bool) (s : State) :
    (State.reportJob p tag ok s).kept = s.kept := by
  unfold State.reportJob; simp

@[simp] theorem State.fenceJob_kept (p : Nat) (tag : BitVec 16) (s : State) :
    (State.fenceJob p tag s).kept = s.kept := by
  unfold State.fenceJob; simp

end Sys2Proof.Machine

namespace Sys2Proof.Machine

@[simp] theorem State.agreeUpdate_kept (s : State) :
    (State.agreeUpdate s).kept = s.kept := by
  unfold State.agreeUpdate; simp

@[simp] theorem State.guyStrobe_kept (s : State) :
    (State.guyStrobe s).kept = s.kept := by
  unfold State.guyStrobe
  repeat' first
    | with_reducible rfl
    | with_reducible assumption
    | (unfold x; clear x)
    | with_reducible refine keep_ite (fun _ => ?_) (fun _ => ?_)
    | (extract_lets +onlyGivenNames x; refine (show x.kept = s.kept → _ from ?_) ?_; clear_value x; intro hx)
    | (extract_lets +onlyGivenNames x; clear_value x)
    | (simp [*]; done)
    | with_reducible refine (State.each_kept _ _ (fun i s => ?_) _).trans ?_
    | with_reducible refine (State.startJob_kept _ _ _ _ (fun j s => ?_) _).trans ?_
    | with_reducible refine (foldl_kept _ (fun s i => ?_) _ _).trans ?_
    | (split; all_goals try (rename_i hx; replace hx := (congrArg (fun z => (Prod.snd z).kept) hx).symm; simp [*] at hx))

@[simp] theorem State.guyStrobeEnd_kept (s : State) :
    (State.guyStrobeEnd s).kept = s.kept := by
  unfold State.guyStrobeEnd; simp

@[simp] theorem State.guyBegin_kept (e p : Nat) (tag : BitVec 16) (gs : List Nat) (s : State) :
    (State.guyBegin e p tag gs s).kept = s.kept := by
  unfold State.guyBegin
  repeat' first
    | with_reducible rfl
    | with_reducible assumption
    | (unfold x; clear x)
    | with_reducible refine keep_ite (fun _ => ?_) (fun _ => ?_)
    | (extract_lets +onlyGivenNames x; refine (show x.kept = s.kept → _ from ?_) ?_; clear_value x; intro hx)
    | (extract_lets +onlyGivenNames x; clear_value x)
    | (simp [*]; done)
    | with_reducible refine (State.each_kept _ _ (fun i s => ?_) _).trans ?_
    | with_reducible refine (State.startJob_kept _ _ _ _ (fun j s => ?_) _).trans ?_
    | with_reducible refine (foldl_kept _ (fun s i => ?_) _ _).trans ?_
    | (split; all_goals try (rename_i hx; replace hx := (congrArg (fun z => (Prod.snd z).kept) hx).symm; simp [*] at hx))

@[simp] theorem State.guyStart_kept (e : Nat) (w : Nat × BitVec 16 × Nat) (s : State) :
    (State.guyStart e w s).kept = s.kept := by
  unfold State.guyStart
  repeat' first
    | with_reducible rfl
    | with_reducible assumption
    | (unfold x; clear x)
    | with_reducible refine keep_ite (fun _ => ?_) (fun _ => ?_)
    | (extract_lets +onlyGivenNames x; refine (show x.kept = s.kept → _ from ?_) ?_; clear_value x; intro hx)
    | (extract_lets +onlyGivenNames x; clear_value x)
    | (simp [*]; done)
    | with_reducible refine (State.each_kept _ _ (fun i s => ?_) _).trans ?_
    | with_reducible refine (State.startJob_kept _ _ _ _ (fun j s => ?_) _).trans ?_
    | with_reducible refine (foldl_kept _ (fun s i => ?_) _ _).trans ?_
    | (split; all_goals try (rename_i hx; replace hx := (congrArg (fun z => (Prod.snd z).kept) hx).symm; simp [*] at hx))

@[simp] theorem State.lineFalls_kept (i : Nat) (s : State) :
    (State.lineFalls i s).kept = s.kept := by
  unfold State.lineFalls; simp

@[simp] theorem State.guyEdge_kept (s : State) : (State.guyEdge s).kept = s.kept := by
  unfold State.guyEdge
  extract_lets +onlyGivenNames t
  have h : t.kept = s.kept := by simp [t]
  clear_value t
  split
  · exact h
  · simp [h]

@[simp] theorem State.guyTimeout_kept (s : State) :
    (State.guyTimeout s).kept = s.kept := by
  unfold State.guyTimeout
  repeat' first
    | with_reducible rfl
    | with_reducible assumption
    | (unfold x; clear x)
    | with_reducible refine keep_ite (fun _ => ?_) (fun _ => ?_)
    | (extract_lets +onlyGivenNames x; refine (show x.kept = s.kept → _ from ?_) ?_; clear_value x; intro hx)
    | (extract_lets +onlyGivenNames x; clear_value x)
    | (simp [*]; done)
    | with_reducible refine (State.each_kept _ _ (fun i s => ?_) _).trans ?_
    | with_reducible refine (State.startJob_kept _ _ _ _ (fun j s => ?_) _).trans ?_
    | with_reducible refine (foldl_kept _ (fun s i => ?_) _ _).trans ?_
    | (split; all_goals try (rename_i hx; replace hx := (congrArg (fun z => (Prod.snd z).kept) hx).symm; simp [*] at hx))

@[simp] theorem State.guyFault_kept (s : State) :
    (State.guyFault s).kept = s.kept := by
  unfold State.guyFault; simp

@[simp] theorem State.guyCfg_kept (v : Word) (s : State) :
    (State.guyCfg v s).kept = s.kept := by
  unfold State.guyCfg; simp

@[simp] theorem State.guyReq_kept (v : Word) (s : State) :
    (State.guyReq v s).kept = s.kept := by
  unfold State.guyReq; simp

@[simp] theorem State.agreeTmo_kept (v : Word) (s : State) :
    (State.agreeTmo v s).kept = s.kept := by
  unfold State.agreeTmo; simp

@[simp] theorem State.syncTrim_kept (v : Word) (s : State) :
    (State.syncTrim v s).kept = s.kept := by
  unfold State.syncTrim; simp

end Sys2Proof.Machine

namespace Sys2Proof.Machine

@[simp] theorem State.secReset_fixed (s : State) : (State.secReset s).kept.fixed = s.kept.fixed := by
  unfold State.secReset
  dsimp only
  split <;> rfl

@[simp] theorem State.secReset_still (s : State) :
    (State.secReset s).kept.still = s.kept.still :=
  State.still_of_fixed (by simp)

@[simp] theorem State.warmReset_fixed (s : State) : (State.warmReset s).kept.fixed = s.kept.fixed := by
  unfold State.warmReset
  have h : s.secReset.kept.fixed = s.kept.fixed := by simp
  generalize s.secReset = t at h
  exact h

@[simp] theorem State.warmReset_still (s : State) :
    (State.warmReset s).kept.still = s.kept.still :=
  State.still_of_fixed (by simp)

@[simp] theorem State.enterAon_fixed (s : State) : (State.enterAon s).kept.fixed = s.kept.fixed := by
  unfold State.enterAon
  extract_lets +onlyGivenNames u t f
  have h : t.kept.fixed = s.kept.fixed := by simp [t, u]
  exact h

@[simp] theorem State.enterAon_still (s : State) :
    (State.enterAon s).kept.still = s.kept.still :=
  State.still_of_fixed (by simp)

@[simp] theorem State.benchPwrErr_kept (b code : Nat) (s : State) :
    (State.benchPwrErr b code s).kept = s.kept := by
  unfold State.benchPwrErr; simp

@[simp] theorem State.wakeBench_kept (b : Nat) (s : State) :
    (State.wakeBench b s).kept = s.kept := by
  unfold State.wakeBench; simp

@[simp] theorem State.cwJobs_kept (p : Nat) (s : State) : (State.cwJobs p s).kept = s.kept := by
  unfold State.cwJobs; simp

@[simp] theorem State.cwBegin_kept (s : State) :
    (State.cwBegin s).kept = s.kept := by
  unfold State.cwBegin; simp

@[simp] theorem State.gateWrite_kept (b : Nat) (s : State) :
    (State.gateWrite b s).kept = s.kept := by
  unfold State.gateWrite; simp

@[simp] theorem State.benchPwr_kept (b : Nat) (v : Word) (s : State) :
    (State.benchPwr b v s).kept = s.kept := by
  unfold State.benchPwr; simp

@[simp] theorem State.dllLocked_kept (b : Nat) (s : State) :
    (State.dllLocked b s).kept = s.kept := by
  unfold State.dllLocked; simp

@[simp] theorem State.dllUnlocked_kept (b : Nat) (s : State) :
    (State.dllUnlocked b s).kept = s.kept := by
  unfold State.dllUnlocked; simp

@[simp] theorem State.beginTransit_kept (s : State) :
    (State.beginTransit s).kept = s.kept := by
  unfold State.beginTransit; simp

@[simp] theorem State.reactivate_still (s : State) :
    (State.reactivate s).kept.still = s.kept.still := by
  unfold State.reactivate
  repeat' first
    | with_reducible rfl
    | with_reducible assumption
    | (unfold x; clear x)
    | with_reducible refine keepStill_ite (fun _ => ?_) (fun _ => ?_)
    | (extract_lets +onlyGivenNames x; refine (show x.kept.still = s.kept.still → _ from ?_) ?_; clear_value x; intro hx)
    | (extract_lets +onlyGivenNames x; clear_value x)
    | (simp [*]; done)
    | with_reducible refine (State.each_still _ _ (fun i s => ?_) _).trans ?_
    | with_reducible refine (foldl_still _ (fun s i => ?_) _ _).trans ?_
    | (split; all_goals try (rename_i hx; replace hx := (congrArg (fun z => (Prod.snd z).kept.still) hx).symm; simp [*] at hx))

@[simp] theorem State.followTarget_kept (s : State) :
    (State.followTarget s).kept = s.kept := by
  unfold State.followTarget; simp

@[simp] theorem State.bootBursts_kept (s : State) : (State.bootBursts s).kept = s.kept := by
  unfold State.bootBursts; simp

@[simp] theorem State.enterReady_still (keyOk : Bool) (s : State) :
    (State.enterReady keyOk s).kept.still = s.kept.still := by
  unfold State.enterReady
  split
  · simp
  extract_lets +onlyGivenNames t u v w x
  have h : t.kept.still = s.kept.still := by simp only [t]; split <;> simp
  clear_value t
  simp [u, v, w, x, h]

@[simp] theorem State.transitDone_still (keyOk : Bool) (s : State) :
    (State.transitDone keyOk s).kept.still = s.kept.still := by
  unfold State.transitDone
  repeat' first
    | with_reducible rfl
    | with_reducible assumption
    | (unfold x; clear x)
    | with_reducible refine keepStill_ite (fun _ => ?_) (fun _ => ?_)
    | (extract_lets +onlyGivenNames x; refine (show x.kept.still = s.kept.still → _ from ?_) ?_; clear_value x; intro hx)
    | (extract_lets +onlyGivenNames x; clear_value x)
    | (simp [*]; done)
    | with_reducible refine (State.each_still _ _ (fun i s => ?_) _).trans ?_
    | with_reducible refine (foldl_still _ (fun s i => ?_) _ _).trans ?_
    | (split; all_goals try (rename_i hx; replace hx := (congrArg (fun z => (Prod.snd z).kept.still) hx).symm; simp [*] at hx))

@[simp] theorem State.pwrErr_kept (code : Nat) (s : State) :
    (State.pwrErr code s).kept = s.kept := by
  unfold State.pwrErr; simp

@[simp] theorem State.requestTarget_kept (t : Nat) (s : State) : (State.requestTarget t s).kept = s.kept := by
  unfold State.requestTarget
  dsimp only
  repeat' split
  all_goals simp

@[simp] theorem State.pwrCtrl_kept (v : Word) (s : State) :
    (State.pwrCtrl v s).kept = s.kept := by
  unfold State.pwrCtrl; simp

@[simp] theorem State.holdCycle_kept (s : State) :
    (State.holdCycle s).kept = s.kept := by
  unfold State.holdCycle; simp

@[simp] theorem State.holdCycles_kept (n : Nat) (s : State) :
    (State.holdCycles n s).kept = s.kept := by
  unfold State.holdCycles; simp

@[simp] theorem State.passes_kept (s : State) :
    (State.passes s).kept = s.kept := by
  unfold State.passes; simp

@[simp] theorem State.passLocal_kept (target : Nat) (s : State) :
    (State.passLocal target s).kept = s.kept := by
  unfold State.passLocal; simp

@[simp] theorem State.passMono_kept (target : Nat) (s : State) :
    (State.passMono target s).kept = s.kept := by
  unfold State.passMono; simp

@[simp] theorem State.wakeFires_kept (s : State) :
    (State.wakeFires s).kept = s.kept := by
  unfold State.wakeFires; simp

@[simp] theorem State.wakeTimer_kept (s : State) :
    (State.wakeTimer s).kept = s.kept := by
  unfold State.wakeTimer; simp

@[simp] theorem State.wakeCtrl_kept (v : Word) (s : State) :
    (State.wakeCtrl v s).kept = s.kept := by
  unfold State.wakeCtrl; simp

@[simp] theorem State.tcoolWrite_kept (v : Word) (s : State) :
    (State.tcoolWrite v s).kept = s.kept := by
  unfold State.tcoolWrite
  repeat' first
    | with_reducible rfl
    | with_reducible assumption
    | (unfold x; clear x)
    | with_reducible refine keep_ite (fun _ => ?_) (fun _ => ?_)
    | (extract_lets +onlyGivenNames x; refine (show x.kept = s.kept → _ from ?_) ?_; clear_value x; intro hx)
    | (extract_lets +onlyGivenNames x; clear_value x)
    | (simp [*]; done)
    | with_reducible refine (State.each_kept _ _ (fun i s => ?_) _).trans ?_
    | with_reducible refine (State.startJob_kept _ _ _ _ (fun j s => ?_) _).trans ?_
    | with_reducible refine (foldl_kept _ (fun s i => ?_) _ _).trans ?_
    | (split; all_goals try (rename_i hx; replace hx := (congrArg (fun z => (Prod.snd z).kept) hx).symm; simp [*] at hx))

@[simp] theorem State.tripRegion_kept (t : Int) (k : Nat) (s : State) :
    (State.tripRegion t k s).kept = s.kept := by
  unfold State.tripRegion; simp

@[simp] theorem State.sourceOff_kept (src : Nat) (s : State) :
    (State.sourceOff src s).kept = s.kept := by
  unfold State.sourceOff; simp

@[simp] theorem State.ftQuietFrom_kept (s : State) :
    (State.ftQuietFrom s).kept = s.kept := by
  unfold State.ftQuietFrom; simp

@[simp] theorem State.thermalUpdate_kept (ps : List Word) (s : State) :
    (State.thermalUpdate ps s).kept = s.kept := by
  unfold State.thermalUpdate; simp

end Sys2Proof.Machine

end
end

