-- ==== Sys2Proof/Laws/KeptDevice.lean ====
section
/-! SUPPORT. What the operations leave alone (Laws/Frame.lean), one lemma for each: recovery, power, metrology, jobs, start-up and security, the registers and the management port. -/

section

set_option maxRecDepth 2000
set_option linter.tactic.unusedName false
set_option Elab.async false

namespace Sys2Proof.Machine

@[simp] theorem State.sampleOff_kept (src : Nat) (s : State) :
    (State.sampleOff src s).kept = s.kept := by
  unfold State.sampleOff
  repeat' first
    | with_reducible rfl
    | with_reducible assumption
    | (unfold x; clear x)
    | with_reducible refine keep_ite (fun _ => ?_) (fun _ => ?_)
    | (extract_lets +onlyGivenNames x; refine (show x.kept = s.kept → _ from ?_) ?_; clear_value x; intro hx)
    | (extract_lets +onlyGivenNames x; clear_value x)
    | (simp [*]; done)
    | with_reducible refine (State.each_kept _ _ (fun i s => ?_) _).trans ?_
    | with_reducible refine (State.startJob_kept _ _ _ _ (fun j s => ?_) _).trans ?_
    | with_reducible refine (foldl_kept _ (fun s i => ?_) _ _).trans ?_
    | (split; all_goals try (rename_i hx; replace hx := (congrArg (fun z => (Prod.snd z).kept) hx).symm; simp [*] at hx))

@[simp] theorem State.deassert_kept (src : Nat) (s : State) :
    (State.deassert src s).kept = s.kept := by
  unfold State.deassert
  repeat' first
    | with_reducible rfl
    | with_reducible assumption
    | (unfold x; clear x)
    | with_reducible refine keep_ite (fun _ => ?_) (fun _ => ?_)
    | (extract_lets +onlyGivenNames x; refine (show x.kept = s.kept → _ from ?_) ?_; clear_value x; intro hx)
    | (extract_lets +onlyGivenNames x; clear_value x)
    | (simp [*]; done)
    | with_reducible refine (State.each_kept _ _ (fun i s => ?_) _).trans ?_
    | with_reducible refine (State.startJob_kept _ _ _ _ (fun j s => ?_) _).trans ?_
    | with_reducible refine (foldl_kept _ (fun s i => ?_) _ _).trans ?_
    | (split; all_goals try (rename_i hx; replace hx := (congrArg (fun z => (Prod.snd z).kept) hx).symm; simp [*] at hx))

@[simp] theorem State.siteNotice_kept (ty i : Nat) (s : State) :
    (State.siteNotice ty i s).kept = s.kept := by
  unfold State.siteNotice; simp

@[simp] theorem State.siteQuietEnd_kept (i : Nat) (s : State) :
    (State.siteQuietEnd i s).kept = s.kept := by
  unfold State.siteQuietEnd; simp

@[simp] theorem State.chanQuietEnd_kept (b l : Nat) (s : State) :
    (State.chanQuietEnd b l s).kept = s.kept := by
  unfold State.chanQuietEnd
  repeat' first
    | with_reducible rfl
    | with_reducible assumption
    | (unfold x; clear x)
    | with_reducible refine keep_ite (fun _ => ?_) (fun _ => ?_)
    | (extract_lets +onlyGivenNames x; refine (show x.kept = s.kept → _ from ?_) ?_; clear_value x; intro hx)
    | (extract_lets +onlyGivenNames x; clear_value x)
    | (simp [*]; done)
    | with_reducible refine (State.each_kept _ _ (fun i s => ?_) _).trans ?_
    | with_reducible refine (State.startJob_kept _ _ _ _ (fun j s => ?_) _).trans ?_
    | with_reducible refine (foldl_kept _ (fun s i => ?_) _ _).trans ?_
    | (split; all_goals try (rename_i hx; replace hx := (congrArg (fun z => (Prod.snd z).kept) hx).symm; simp [*] at hx))

@[simp] theorem State.reinitDone_kept (i : Nat) (s : State) :
    (State.reinitDone i s).kept = s.kept := by
  unfold State.reinitDone; simp

@[simp] theorem State.siteRelease_kept (i : Nat) (s : State) :
    (State.siteRelease i s).kept = s.kept := by
  unfold State.siteRelease
  repeat' first
    | with_reducible rfl
    | with_reducible assumption
    | (unfold x; clear x)
    | with_reducible refine keep_ite (fun _ => ?_) (fun _ => ?_)
    | (extract_lets +onlyGivenNames x; refine (show x.kept = s.kept → _ from ?_) ?_; clear_value x; intro hx)
    | (extract_lets +onlyGivenNames x; clear_value x)
    | (simp [*]; done)
    | with_reducible refine (State.each_kept _ _ (fun i s => ?_) _).trans ?_
    | with_reducible refine (State.startJob_kept _ _ _ _ (fun j s => ?_) _).trans ?_
    | with_reducible refine (foldl_kept _ (fun s i => ?_) _ _).trans ?_
    | (split; all_goals try (rename_i hx; replace hx := (congrArg (fun z => (Prod.snd z).kept) hx).symm; simp [*] at hx))

@[simp] theorem State.leaveFault_still (s : State) :
    (State.leaveFault s).kept.still = s.kept.still := by
  unfold State.leaveFault; simp

@[simp] theorem State.ftNotice_kept (ty : Nat) (s : State) :
    (State.ftNotice ty s).kept = s.kept := by
  unfold State.ftNotice; simp

@[simp] theorem State.ftExit_still (s : State) :
    (State.ftExit s).kept.still = s.kept.still := by
  unfold State.ftExit; simp

@[simp] theorem State.fltErr_kept (s : State) :
    (State.fltErr s).kept = s.kept := by
  unfold State.fltErr; simp

@[simp] theorem State.clearFirst_kept (s : State) :
    (State.clearFirst s).kept = s.kept := by
  unfold State.clearFirst; simp

@[simp] theorem State.ftRecover_still (s : State) :
    (State.ftRecover s).kept.still = s.kept.still := by
  unfold State.ftRecover; simp

@[simp] theorem State.fltCtrl_still (v : Word) (s : State) :
    (State.fltCtrl v s).kept.still = s.kept.still := by
  unfold State.fltCtrl; simp

@[simp] theorem State.fltQuiet_kept (k : Nat) (v : Word) (s : State) :
    (State.fltQuiet k v s).kept = s.kept := by
  unfold State.fltQuiet; simp

@[simp] theorem State.fltQuietFt_kept (v : Word) (s : State) :
    (State.fltQuietFt v s).kept = s.kept := by
  unfold State.fltQuietFt; simp

@[simp] theorem State.fltRecLim_kept (v : Word) (s : State) :
    (State.fltRecLim v s).kept = s.kept := by
  unfold State.fltRecLim; simp

end Sys2Proof.Machine

namespace Sys2Proof.Machine

@[simp] theorem State.pllDown_kept (s : State) :
    (State.pllDown s).kept = s.kept := by
  unfold State.pllDown; simp

@[simp] theorem State.pllUnlocked_kept (s : State) :
    (State.pllUnlocked s).kept = s.kept := by
  unfold State.pllUnlocked; simp

@[simp] theorem State.refLost_kept (s : State) :
    (State.refLost s).kept = s.kept := by
  unfold State.refLost; simp

@[simp] theorem State.refBack_kept (s : State) :
    (State.refBack s).kept = s.kept := by
  unfold State.refBack; simp

@[simp] theorem State.lateCmps_kept (s : State) :
    (State.lateCmps s).kept = s.kept := by
  unfold State.lateCmps; simp

@[simp] theorem State.dropAgain_kept (s : State) : s.dropAgain.kept = s.kept :=
  foldl_kept _ (fun s x => State.sampleOff_kept x s) _ _

@[simp] theorem State.pllLocked_still (s : State) :
    (State.pllLocked s).kept.still = s.kept.still := by
  unfold State.pllLocked; simp

@[simp] theorem State.syncApply_kept (s : State) :
    (State.syncApply s).kept = s.kept := by
  unfold State.syncApply; simp

@[simp] theorem State.syncEdge_kept (s : State) :
    (State.syncEdge s).kept = s.kept := by
  unfold State.syncEdge; simp

@[simp] theorem State.epochBegin_kept (s : State) :
    (State.epochBegin s).kept = s.kept := by
  unfold State.epochBegin; simp

@[simp] theorem State.clkErr_kept (code : Nat) (s : State) :
    (State.clkErr code s).kept = s.kept := by
  unfold State.clkErr; simp

@[simp] theorem State.clkOutCfg_kept (i : Nat) (v : Word) (s : State) :
    (State.clkOutCfg i v s).kept = s.kept := by
  unfold State.clkOutCfg; simp

@[simp] theorem State.clkOutDly_kept (i : Nat) (v : Word) (s : State) :
    (State.clkOutDly i v s).kept = s.kept := by
  unfold State.clkOutDly; simp

@[simp] theorem State.lockCfg_kept (v : Word) (s : State) :
    (State.lockCfg v s).kept = s.kept := by
  unfold State.lockCfg; simp

end Sys2Proof.Machine

namespace Sys2Proof.Machine

@[simp] theorem State.cmpAct_kept (c : Cmp) (s : State) :
    (State.cmpAct c s).2.2.kept = s.kept := by
  unfold State.cmpAct
  repeat' first
    | with_reducible rfl
    | with_reducible assumption
    | (unfold x; clear x)
    | with_reducible refine keep_ite (fun _ => ?_) (fun _ => ?_)
    | (extract_lets +onlyGivenNames x; refine (show x.kept = s.kept → _ from ?_) ?_; clear_value x; intro hx)
    | (extract_lets +onlyGivenNames x; clear_value x)
    | (simp [*]; done)
    | with_reducible refine (State.each_kept _ _ (fun i s => ?_) _).trans ?_
    | with_reducible refine (State.startJob_kept _ _ _ _ (fun j s => ?_) _).trans ?_
    | with_reducible refine (foldl_kept _ (fun s i => ?_) _ _).trans ?_
    | (split; all_goals try (rename_i hx; replace hx := (congrArg (fun z => (Prod.snd z).kept) hx).symm; simp [*] at hx))

@[simp] theorem State.cmpFire_kept (i : Nat) (late : Bool) (s : State) :
    (State.cmpFire i late s).kept = s.kept := by
  unfold State.cmpFire; simp

@[simp] theorem State.cmpDue_kept (i : Nat) (s : State) :
    (State.cmpDue i s).kept = s.kept := by
  unfold State.cmpDue; simp

@[simp] theorem State.scheduleJob_kept (p : Nat) (tag : BitVec 16) (s : State) :
    (State.scheduleJob p tag s).kept = s.kept := by
  unfold State.scheduleJob
  repeat' first
    | with_reducible rfl
    | with_reducible assumption
    | (unfold x; clear x)
    | with_reducible refine keep_ite (fun _ => ?_) (fun _ => ?_)
    | (extract_lets +onlyGivenNames x; refine (show x.kept = s.kept → _ from ?_) ?_; clear_value x; intro hx)
    | (extract_lets +onlyGivenNames x; clear_value x)
    | (simp [*]; done)
    | with_reducible refine (State.each_kept _ _ (fun i s => ?_) _).trans ?_
    | with_reducible refine (State.startJob_kept _ _ _ _ (fun j s => ?_) _).trans ?_
    | with_reducible refine (foldl_kept _ (fun s i => ?_) _ _).trans ?_
    | (split; all_goals try (rename_i hx; replace hx := (congrArg (fun z => (Prod.snd z).kept) hx).symm; simp [*] at hx))

@[simp] theorem State.setLocal_kept (v : Int) (s : State) :
    (State.setLocal v s).kept = s.kept := by
  unfold State.setLocal; simp

@[simp] theorem State.stepTo_kept (v : Int) (s : State) :
    (State.stepTo v s).kept = s.kept := by
  unfold State.stepTo; simp

@[simp] theorem State.servo_kept (o : Int) (k : Nat) (s : State) :
    (State.servo o k s).kept = s.kept := by
  unfold State.servo; simp

@[simp] theorem State.offset_kept (o target : Int) (k : Nat) (s : State) :
    (State.offset o target k s).kept = s.kept := by
  unfold State.offset; simp

@[simp] theorem State.ageHoldover_kept (s : State) :
    (State.ageHoldover s).kept = s.kept := by
  unfold State.ageHoldover; simp

@[simp] theorem State.setMaster_kept (master lost : Bool) (s : State) :
    (State.setMaster master lost s).kept = s.kept := by
  unfold State.setMaster; simp

@[simp] theorem State.announce_kept (id : PtpId) (k : Nat) (s : State) :
    (State.announce id k s).kept = s.kept := by
  unfold State.announce; simp

@[simp] theorem State.announceTimeout_kept (s : State) : (State.announceTimeout s).kept = s.kept := by
  unfold State.announceTimeout
  dsimp only
  rw [State.setMaster_kept]
  split <;> simp

@[simp] theorem State.ptpSync_kept (id : PtpId) (origin : Option Int) (corr : Int) (k after : Nat) (s : State) :
    (State.ptpSync id origin corr k after s).kept = s.kept := by
  unfold State.ptpSync; simp

@[simp] theorem State.exchange_kept (x : Exchange) (s : State) : (State.exchange x s).kept = s.kept := by
  unfold State.exchange
  split <;> simp

@[simp] theorem State.settle_kept (s : State) : (State.settle s).kept = s.kept := by
  unfold State.settle; simp

/-- Judging the agreement around a change keeps what the change keeps. -/
@[simp] theorem State.judged_kept (f : State → State) (s : State) (h : ∀ s, (f s).kept = s.kept) :
    (s.judged f).kept = s.kept := by
  unfold State.judged; simp [h]

@[simp] theorem State.judged_fixed (f : State → State) (s : State) (h : ∀ s, (f s).kept.fixed = s.kept.fixed) :
    (s.judged f).kept.fixed = s.kept.fixed := by
  unfold State.judged; simp [h]

@[simp] theorem State.judged_still (f : State → State) (s : State) (h : ∀ s, (f s).kept.still = s.kept.still) :
    (s.judged f).kept.still = s.kept.still := by
  unfold State.judged; simp [h]

@[simp] theorem State.followUp_kept (id : PtpId) (origin corr : Int) (s : State) :
    (State.followUp id origin corr s).kept = s.kept := by
  unfold State.followUp
  split <;> simp

@[simp] theorem State.delayResp_kept (id : PtpId) (t4 corr : Int) (s : State) :
    (State.delayResp id t4 corr s).kept = s.kept := by
  unfold State.delayResp
  split <;> simp

@[simp] theorem State.ppsEdge_kept (s : State) :
    (State.ppsEdge s).kept = s.kept := by
  unfold State.ppsEdge; simp

@[simp] theorem State.ppsPulse_kept (s : State) :
    (State.ppsPulse s).kept = s.kept := by
  unfold State.ppsPulse; simp

@[simp] theorem State.ppsEnd_kept (s : State) :
    (State.ppsEnd s).kept = s.kept := by
  unfold State.ppsEnd; simp

@[simp] theorem State.timeCtrl_kept (v : Word) (s : State) :
    (State.timeCtrl v s).kept = s.kept := by
  unfold State.timeCtrl; simp

@[simp] theorem State.jumpLim_kept (v : Word) (s : State) :
    (State.jumpLim v s).kept = s.kept := by
  unfold State.jumpLim; simp

@[simp] theorem State.timeRate_kept (v : Word) (s : State) :
    (State.timeRate v s).kept = s.kept := by
  unfold State.timeRate; simp

@[simp] theorem State.timeServo_kept (v : Word) (s : State) :
    (State.timeServo v s).kept = s.kept := by
  unfold State.timeServo; simp

@[simp] theorem State.ptpCfg_kept (v : Word) (s : State) :
    (State.ptpCfg v s).kept = s.kept := by
  unfold State.ptpCfg; simp

end Sys2Proof.Machine

namespace Sys2Proof.Machine

@[simp] theorem State.refCheck_kept (d : Word) (s : State) :
    (State.refCheck d s).kept = s.kept := by
  unfold State.refCheck; simp

@[simp] theorem State.modRb_kept (p : Nat) (f : Readback → Readback) (s : State) :
    (State.modRb p f s).kept = s.kept := by
  unfold State.modRb; simp

@[simp] theorem State.rbCtrl_kept (p : Nat) (v : Word) (s : State) :
    (State.rbCtrl p v s).kept = s.kept := by
  unfold State.rbCtrl; simp

@[simp] theorem State.mainResult_kept (node ix avg : Nat) (codes : List (BitVec 24)) (s : State) :
    (State.mainResult node ix avg codes s).2.kept = s.kept := by
  unfold State.mainResult; simp

@[simp] theorem State.rbDone_kept (codes : List (BitVec 24)) (s : State) : (State.rbDone codes s).kept = s.kept := by
  unfold State.rbDone
  split
  · rfl
  · dsimp only; simp

@[simp] theorem State.metStatus_kept (refused : Bool) (s : State) :
    (State.metStatus refused s).2.kept = s.kept := by
  unfold State.metStatus; simp

@[simp] theorem State.metAnswer_kept (refused : Bool) (words : Option (List Word)) (s : State) :
    (State.metAnswer refused words s).kept = s.kept := by
  unfold State.metAnswer; simp

@[simp] theorem State.metFrame_kept (cmd : Nat) (addr : BitVec 24) (data : List Word) (crc : Byte) (ok : Bool) (f : State → State)
    (h : ∀ t, (f t).kept = t.kept) (s : State) : (s.metFrame cmd addr data crc ok f).kept = s.kept := by
  unfold State.metFrame
  split
  · rfl
  split
  · simp
  · dsimp only
    split <;> simp [h]

@[simp] theorem State.metAbort_kept (s : State) :
    (State.metAbort s).kept = s.kept := by
  unfold State.metAbort; simp

@[simp] theorem State.freshNonce_kept (s : State) :
    (State.freshNonce s).kept = s.kept := by
  unfold State.freshNonce; simp

@[simp] theorem State.metRead_kept (addr n : Nat) (s : State) :
    (State.metRead addr n s).kept = s.kept := by
  unfold State.metRead; simp

@[simp] theorem State.metWrite_kept (addr : BitVec 24) (data : List Word) (crc : Byte) (s : State) :
    (State.metWrite addr data crc s).kept = s.kept := by
  unfold State.metWrite
  refine State.metFrame_kept _ _ _ _ _ _ (fun t => ?_) _
  have put (m : Met) (a : Nat) (v : Word) : (m.put a v).store = m.store ∧ (m.put a v).sealKey = m.sealKey := by
    unfold Met.put
    split
    · exact ⟨rfl, rfl⟩
    · split <;> exact ⟨rfl, rfl⟩
  have h (xs : List (Word × Nat)) (m : Met) :
      (xs.foldl (fun m x => m.put (addr.toNat + x.2) x.1) m).store = m.store ∧
      (xs.foldl (fun m x => m.put (addr.toNat + x.2) x.1) m).sealKey = m.sealKey := by
    induction xs generalizing m with
    | nil => exact ⟨rfl, rfl⟩
    | cons x xs ih => exact ⟨(ih _).1.trans (put _ _ _).1, (ih _).2.trans (put _ _ _).2⟩
  exact State.modMet_kept _ _ (h _ _).1 (h _ _).2

@[simp] theorem State.openSession_kept (addr : BitVec 24) (crc : Byte) (s : State) :
    (State.openSession addr crc s).kept = s.kept := by
  unfold State.openSession
  refine State.metFrame_kept _ _ _ _ _ _ (fun t => ?_) _
  split <;> simp

@[simp] theorem State.closeSession_hbm (addr : BitVec 24) (data : List Word) (crc : Byte) (s : State) :
    (State.closeSession addr data crc s).hbm = s.hbm ∧ (State.closeSession addr data crc s).pending = s.pending := by
  unfold State.closeSession State.metFrame
  split
  · exact ⟨rfl, rfl⟩
  have h (b : Bool) : (s.metAnswer b none).hbm = s.hbm ∧ (s.metAnswer b none).pending = s.pending :=
    ⟨State.kept_hbm (by simp), State.kept_pending (by simp)⟩
  split
  · exact h true
  · dsimp only
    split
    · exact h (!(s.met.sealState == .session && data.length == 3))
    · exact h _

@[simp] theorem State.sessionAbort_kept (s : State) :
    (State.sessionAbort s).kept = s.kept := by
  unfold State.sessionAbort; simp

@[simp] theorem State.abortFrame_kept (addr : BitVec 24) (crc : Byte) (s : State) :
    (State.abortFrame addr crc s).kept = s.kept := by
  unfold State.abortFrame; simp

@[simp] theorem State.calEnLow_kept (s : State) :
    (State.calEnLow s).kept = s.kept := by
  unfold State.calEnLow; simp

@[simp] theorem State.measureFrame_kept (addr : BitVec 24) (data : List Word) (codes : List (BitVec 24)) (crc : Byte)
    (s : State) : (State.measureFrame addr data codes crc s).kept = s.kept := by
  unfold State.measureFrame; simp

@[simp] theorem State.metDown_kept (s : State) :
    (State.metDown s).kept = s.kept := by
  unfold State.metDown; simp

@[simp] theorem State.metReset_kept (addr : BitVec 24) (crc : Byte) (s : State) :
    (State.metReset addr crc s).kept = s.kept := by
  unfold State.metReset; simp

@[simp] theorem State.vmetLoss_kept (s : State) :
    (State.vmetLoss s).kept = s.kept := by
  unfold State.vmetLoss; simp

@[simp] theorem State.metUp_kept (s : State) :
    (State.metUp s).kept = s.kept := by
  unfold State.metUp; simp

@[simp] theorem State.mirrorFail_kept (s : State) :
    (State.mirrorFail s).kept = s.kept := by
  unfold State.mirrorFail; simp

@[simp] theorem State.mirrorLoad_kept (wrong : List (Nat × Word)) (s : State) :
    (State.mirrorLoad wrong s).kept = s.kept := by
  unfold State.mirrorLoad; simp

@[simp] theorem State.metTimeout_kept (s : State) :
    (State.metTimeout s).kept = s.kept := by
  unfold State.metTimeout; simp

end Sys2Proof.Machine

namespace Sys2Proof.Machine

@[simp] theorem State.trigInEdge_kept (i : Nat) (rising : Bool) (s : State) :
    (State.trigInEdge i rising s).kept = s.kept := by
  unfold State.trigInEdge; simp

@[simp] theorem State.guyTriggerEdge_kept (i : Nat) (s : State) :
    (State.guyTriggerEdge i s).kept = s.kept := by
  unfold State.guyTriggerEdge; simp

@[simp] theorem State.swTrig_kept (w : Who) (v : Word) (s : State) :
    (State.swTrig w v s).kept = s.kept := by
  unfold State.swTrig; simp

@[simp] theorem State.trigOutEnd_kept (i : Nat) (s : State) :
    (State.trigOutEnd i s).kept = s.kept := by
  unfold State.trigOutEnd; simp

@[simp] theorem State.ioCfg_kept (v : Word) (s : State) :
    (State.ioCfg v s).kept = s.kept := by
  unfold State.ioCfg; simp

@[simp] theorem State.destWrite_kept (d : Nat) (v : Word) (s : State) :
    (State.destWrite d v s).kept = s.kept := by
  unfold State.destWrite; simp

end Sys2Proof.Machine

namespace Sys2Proof.Machine

@[simp] theorem State.coldReset_still (s : State) : (State.coldReset s).kept.still = s.kept.still := by
  have h : s.secReset.loseKey.kept.still = s.kept.still := by simp
  unfold State.coldReset
  generalize s.secReset.loseKey = t at h
  exact h

@[simp] theorem State.coldStartup_kept (s : State) :
    (State.coldStartup s).kept = s.kept := by
  unfold State.coldStartup; simp

@[simp] theorem State.restart_kept (s : State) :
    (State.restart s).kept = s.kept := by
  unfold State.restart; simp

@[simp] theorem State.fuseLoadDone_kept (ok : Bool) (s : State) :
    (State.fuseLoadDone ok s).kept = s.kept := by
  unfold State.fuseLoadDone; simp

@[simp] theorem State.warmPulse_fixed (soft : Bool) (s : State) :
    (State.warmPulse soft s).kept.fixed = s.kept.fixed := by
  unfold State.warmPulse; simp

@[simp] theorem State.warmPulse_still (soft : Bool) (s : State) :
    (State.warmPulse soft s).kept.still = s.kept.still :=
  State.still_of_fixed (by simp)

@[simp] theorem State.warmStartup_kept (s : State) :
    (State.warmStartup s).kept = s.kept := by
  unfold State.warmStartup; simp

@[simp] theorem State.resetPart_kept (q : Nat) (s : State) :
    (State.resetPart q s).kept = s.kept := by
  unfold State.resetPart
  repeat' first
    | with_reducible rfl
    | with_reducible assumption
    | (unfold x; clear x)
    | with_reducible refine keep_ite (fun _ => ?_) (fun _ => ?_)
    | (extract_lets +onlyGivenNames x; refine (show x.kept = s.kept → _ from ?_) ?_; clear_value x; intro hx)
    | (extract_lets +onlyGivenNames x; clear_value x)
    | (simp [*]; done)
    | with_reducible refine (State.each_kept _ _ (fun i s => ?_) _).trans ?_
    | with_reducible refine (State.startJob_kept _ _ _ _ (fun j s => ?_) _).trans ?_
    | with_reducible refine (foldl_kept _ (fun s i => ?_) _ _).trans ?_
    | (split; all_goals try (rename_i hx; replace hx := (congrArg (fun z => (Prod.snd z).kept) hx).symm; simp [*] at hx))

@[simp] theorem State.partReset_kept (v : Word) (s : State) :
    (State.partReset v s).kept = s.kept := by
  unfold State.partReset; simp

@[simp] theorem State.bootBurstEnd_kept (s : State) : s.bootBurstEnd.kept = s.kept := by
  unfold State.bootBurstEnd; split <;> simp

@[simp] theorem State.bootRead_kept (header : Option (Word × Word)) (s : State) :
    (State.bootRead header s).kept = s.kept := by
  unfold State.bootRead
  repeat' first
    | with_reducible rfl
    | with_reducible assumption
    | (unfold x; clear x)
    | with_reducible refine keep_ite (fun _ => ?_) (fun _ => ?_)
    | (extract_lets +onlyGivenNames x; refine (show x.kept = s.kept → _ from ?_) ?_; clear_value x; intro hx)
    | (extract_lets +onlyGivenNames x; clear_value x)
    | (simp [*]; done)
    | with_reducible refine (State.each_kept _ _ (fun i s => ?_) _).trans ?_
    | with_reducible refine (State.startJob_kept _ _ _ _ (fun j s => ?_) _).trans ?_
    | with_reducible refine (foldl_kept _ (fun s i => ?_) _ _).trans ?_
    | (split; all_goals try (rename_i hx; replace hx := (congrArg (fun z => (Prod.snd z).kept) hx).symm; simp [*] at hx))

@[simp] theorem State.armInput_kept (k : Nat) (s : State) :
    (State.armInput k s).kept = s.kept := by
  unfold State.armInput; simp

@[simp] theorem State.inputArm_kept (pin : InPin) (high : Bool) (s : State) :
    (State.inputArm pin high s).kept = s.kept := by
  unfold State.inputArm
  repeat' first
    | with_reducible rfl
    | with_reducible assumption
    | (unfold x; clear x)
    | with_reducible refine keep_ite (fun _ => ?_) (fun _ => ?_)
    | (extract_lets +onlyGivenNames x; refine (show x.kept = s.kept → _ from ?_) ?_; clear_value x; intro hx)
    | (extract_lets +onlyGivenNames x; clear_value x)
    | (simp [*]; done)
    | with_reducible refine (State.each_kept _ _ (fun i s => ?_) _).trans ?_
    | with_reducible refine (State.startJob_kept _ _ _ _ (fun j s => ?_) _).trans ?_
    | with_reducible refine (foldl_kept _ (fun s i => ?_) _ _).trans ?_
    | (split; all_goals try (rename_i hx; replace hx := (congrArg (fun z => (Prod.snd z).kept) hx).symm; simp [*] at hx))

@[simp] theorem State.cwValues_kept (c n : Nat) (ks : List (List (BitVec 18))) (s : State) :
    (State.cwValues c n ks s).2.kept = s.kept := by
  induction n generalizing c ks s with
  | zero => rfl
  | succ n ih =>
    unfold State.cwValues
    dsimp only
    split <;> simp [ih]

@[simp] theorem State.cwScan_kept (codes : List (List (BitVec 18))) (s : State) :
    (State.cwScan codes s).kept = s.kept := by
  unfold State.cwScan; simp

@[simp] theorem State.vaon_still (below : Bool) (s : State) :
    (State.vaon below s).kept.still = s.kept.still := by
  unfold State.vaon; simp

@[simp] theorem State.detect_kept (src : Nat) (rail : Bool) (s : State) :
    (State.detect src rail s).kept = s.kept := by
  unfold State.detect; simp

end Sys2Proof.Machine

namespace Sys2Proof.Machine

@[simp] theorem State.secErr_kept (code : Nat) (s : State) :
    (State.secErr code s).kept = s.kept := by
  unfold State.secErr; simp

@[simp] theorem State.clearProv_kept (s : State) :
    (State.clearProv s).kept = s.kept := by
  unfold State.clearProv; simp

@[simp] theorem State.secCtrl_fixed (v : Word) (s : State) : (State.secCtrl v s).kept.fixed = s.kept.fixed := by
  unfold State.secCtrl
  extract_lets +onlyGivenNames prog rev slot
  split
  · split <;> rfl
  extract_lets +onlyGivenNames c
  split
  · extract_lets +onlyGivenNames t
    have h : t.kept = s.kept := by simp [t]
    split <;> simp [h]
  · extract_lets +onlyGivenNames t
    have h : t.kept = s.kept := rfl
    split
    · rfl
    · rfl

@[simp] theorem State.secCtrl_still (v : Word) (s : State) :
    (State.secCtrl v s).kept.still = s.kept.still :=
  State.still_of_fixed (by simp)

@[simp] theorem State.programDone_fixed (s : State) : (State.programDone s).kept.fixed = s.kept.fixed := by
  unfold State.programDone
  split
  · rfl
  · rw [State.clearProv_kept]; rfl

@[simp] theorem State.programDone_still (s : State) :
    (State.programDone s).kept.still = s.kept.still :=
  State.still_of_fixed (by simp)

@[simp] theorem State.jtagSelect_fixed (i : Jtag) (s : State) :
    (State.jtagSelect i s).kept.fixed = s.kept.fixed := by
  unfold State.jtagSelect; simp

@[simp] theorem State.jtagSelect_still (i : Jtag) (s : State) :
    (State.jtagSelect i s).kept.still = s.kept.still :=
  State.still_of_fixed (by simp)

@[simp] theorem State.freeBits_kept (n : Nat) (s : State) : (State.freeBits n s).2.kept = s.kept := by
  induction n generalizing s with
  | zero => rfl
  | succ n ih => simp [State.freeBits, ih]

@[simp] theorem State.jtagShift_kept (bs : List Bool) (s : State) :
    (State.jtagShift bs s).kept = s.kept := by
  unfold State.jtagShift; simp

@[simp] theorem State.jtagId_kept (s : State) :
    (State.jtagId s).kept = s.kept := by
  unfold State.jtagId; simp

@[simp] theorem State.jtagBypass_kept (s : State) :
    (State.jtagBypass s).kept = s.kept := by
  unfold State.jtagBypass; simp

@[simp] theorem State.destroySlots_fixed (s : State) : (State.destroySlots s).kept.fixed = s.kept.fixed := rfl

@[simp] theorem State.destroySlots_still (s : State) :
    (State.destroySlots s).kept.still = s.kept.still :=
  State.still_of_fixed (by simp)

@[simp] theorem State.rmaCut_fixed (s : State) : (State.rmaCut s).kept.fixed = s.kept.fixed := rfl

@[simp] theorem State.rmaCut_still (s : State) :
    (State.rmaCut s).kept.still = s.kept.still :=
  State.still_of_fixed (by simp)

@[simp] theorem State.rmaUnlock_still (r sg : BitVec 384) (supplyLost : Bool) (s : State) :
    (State.rmaUnlock r sg supplyLost s).kept.still = s.kept.still := by
  unfold State.rmaUnlock
  extract_lets +onlyGivenNames ok nonce t n u
  have ht : t.kept.still = s.kept.still := by simp [t]
  have hn : n.kept.still = t.kept.still := rfl
  have hu : u.kept.still = s.kept.still := by
    simp only [u]; split
    · exact (State.still_of_fixed (State.destroySlots_fixed n)).trans (hn.trans ht)
    · exact hn.trans ht
  clear_value u
  split
  · exact hu
  split
  · exact (State.still_of_fixed (State.rmaCut_fixed u)).trans hu
  · exact (State.loseKey_still u.destroySlots).trans ((State.still_of_fixed (State.destroySlots_fixed u)).trans hu)

end Sys2Proof.Machine

namespace Sys2Proof.Machine

@[simp] theorem State.mirrorRead_kept (o : Nat) (s : State) :
    (State.mirrorRead o s).2.kept = s.kept := by
  unfold State.mirrorRead
  repeat' first
    | with_reducible rfl
    | with_reducible assumption
    | (unfold x; clear x)
    | with_reducible refine keep_ite (fun _ => ?_) (fun _ => ?_)
    | (extract_lets +onlyGivenNames x; refine (show x.kept = s.kept → _ from ?_) ?_; clear_value x; intro hx)
    | (extract_lets +onlyGivenNames x; clear_value x)
    | (simp [*]; done)
    | with_reducible refine (State.each_kept _ _ (fun i s => ?_) _).trans ?_
    | with_reducible refine (State.startJob_kept _ _ _ _ (fun j s => ?_) _).trans ?_
    | with_reducible refine (foldl_kept _ (fun s i => ?_) _ _).trans ?_
    | (split; all_goals try (rename_i hx; replace hx := (congrArg (fun z => (Prod.snd z).kept) hx).symm; simp [*] at hx))

@[simp] theorem State.winRead_kept (w : Who) (a : Nat) (s : State) : (State.winRead w a s).2.kept = s.kept := by
  unfold State.winRead
  by_cases h : winEnd ≤ a
  · rw [if_pos h]
  rw [if_neg h]
  by_cases h2 : 0x500000 ≤ a
  · rw [if_pos h2]
    have k := State.mirrorRead_kept (a - 0x500000) s
    generalize s.mirrorRead (a - 0x500000) = q at k
    obtain ⟨v, t⟩ := q
    exact k
  rw [if_neg h2]
  by_cases h3 : s.img.stg = .committing
  · rw [if_pos h3]
  rw [if_neg h3]
  cases w with
  | mspi => rfl
  | port p => exact (ite_snd_kept ..).trans (by split <;> first | exact State.violate_kept .. | rfl)

@[simp] theorem State.regRead_kept (w : Who) (a : Nat) (s : State) : (State.regRead w a s).2.kept = s.kept := by
  unfold State.regRead
  extract_lets +onlyGivenNames one
  have k (x : Word × State) : (one x).2.kept = x.2.kept := rfl
  clear_value one
  split
  · rfl
  split
  · simp
  split
  · simp [k]
  split
  · simp [k]
  split
  · simp [k]
  split
  · dsimp only
    split <;> simp [k]
  · rfl

@[simp] theorem State.regSeen_kept (w : Who) (a : Nat) (s : State) : (State.regSeen w a s).2.kept = s.kept := by
  unfold State.regSeen
  extract_lets +onlyGivenNames r
  have k : r.2.kept = s.kept := by simp [r]
  clear_value r
  split
  · simpa using k
  · exact k

@[simp] theorem State.sayUnmapped_kept (w : Who) (s : State) :
    (State.sayUnmapped w s).kept = s.kept := by
  unfold State.sayUnmapped
  repeat' first
    | with_reducible rfl
    | with_reducible assumption
    | (unfold x; clear x)
    | with_reducible refine keep_ite (fun _ => ?_) (fun _ => ?_)
    | (extract_lets +onlyGivenNames x; refine (show x.kept = s.kept → _ from ?_) ?_; clear_value x; intro hx)
    | (extract_lets +onlyGivenNames x; clear_value x)
    | (simp [*]; done)
    | with_reducible refine (State.each_kept _ _ (fun i s => ?_) _).trans ?_
    | with_reducible refine (State.startJob_kept _ _ _ _ (fun j s => ?_) _).trans ?_
    | with_reducible refine (foldl_kept _ (fun s i => ?_) _ _).trans ?_
    | (split; all_goals try (rename_i hx; replace hx := (congrArg (fun z => (Prod.snd z).kept) hx).symm; simp [*] at hx))

@[simp] theorem State.sayOffline_kept (w : Who) (s : State) :
    (State.sayOffline w s).kept = s.kept := by
  unfold State.sayOffline
  repeat' first
    | with_reducible rfl
    | with_reducible assumption
    | (unfold x; clear x)
    | with_reducible refine keep_ite (fun _ => ?_) (fun _ => ?_)
    | (extract_lets +onlyGivenNames x; refine (show x.kept = s.kept → _ from ?_) ?_; clear_value x; intro hx)
    | (extract_lets +onlyGivenNames x; clear_value x)
    | (simp [*]; done)
    | with_reducible refine (State.each_kept _ _ (fun i s => ?_) _).trans ?_
    | with_reducible refine (State.startJob_kept _ _ _ _ (fun j s => ?_) _).trans ?_
    | with_reducible refine (foldl_kept _ (fun s i => ?_) _ _).trans ?_
    | (split; all_goals try (rename_i hx; replace hx := (congrArg (fun z => (Prod.snd z).kept) hx).symm; simp [*] at hx))

@[simp] theorem State.readWord_kept (w : Who) (a : Nat) (s : State) : (State.readWord w a s).2.kept = s.kept := by
  unfold State.readWord
  extract_lets +onlyGivenNames r
  split
  · simp
  split
  · rfl
  have k := State.regSeen_kept w a s
  generalize s.regSeen w a = q at k
  rcases q with ⟨_ | v, t⟩
  · simpa using k
  · dsimp only at k ⊢
    split
    · simpa using k
    split
    · simpa using k
    · exact k

@[simp] theorem State.busRead_kept (w : Who) (a : Nat) (s : State) : (State.busRead w a s).kept = s.kept := by
  unfold State.busRead
  split <;> simp

@[simp] theorem State.denied_kept (w : Who) (a : Nat) (s : State) :
    (State.denied w a s).kept = s.kept := by
  unfold State.denied
  repeat' first
    | with_reducible rfl
    | with_reducible assumption
    | (unfold x; clear x)
    | with_reducible refine keep_ite (fun _ => ?_) (fun _ => ?_)
    | (extract_lets +onlyGivenNames x; refine (show x.kept = s.kept → _ from ?_) ?_; clear_value x; intro hx)
    | (extract_lets +onlyGivenNames x; clear_value x)
    | (simp [*]; done)
    | with_reducible refine (State.each_kept _ _ (fun i s => ?_) _).trans ?_
    | with_reducible refine (State.startJob_kept _ _ _ _ (fun j s => ?_) _).trans ?_
    | with_reducible refine (foldl_kept _ (fun s i => ?_) _ _).trans ?_
    | (split; all_goals try (rename_i hx; replace hx := (congrArg (fun z => (Prod.snd z).kept) hx).symm; simp [*] at hx))

@[simp] theorem State.topWrite_fixed (a : Nat) (v : Word) (s : State) :
    (State.topWrite a v s).kept.fixed = s.kept.fixed := by
  unfold State.topWrite
  repeat' first
    | with_reducible rfl
    | with_reducible assumption
    | (unfold x; clear x)
    | with_reducible refine keepFixed_ite (fun _ => ?_) (fun _ => ?_)
    | (extract_lets +onlyGivenNames x; refine (show x.kept.fixed = s.kept.fixed → _ from ?_) ?_; clear_value x; intro hx)
    | (extract_lets +onlyGivenNames x; clear_value x)
    | (simp [*]; done)
    | with_reducible refine (State.each_fixed _ _ (fun i s => ?_) _).trans ?_
    | with_reducible refine (foldl_fixed _ (fun s i => ?_) _ _).trans ?_
    | (split; all_goals try (rename_i hx; replace hx := (congrArg (fun z => (Prod.snd z).kept.fixed) hx).symm; simp [*] at hx))

@[simp] theorem State.topWrite_still (a : Nat) (v : Word) (s : State) :
    (State.topWrite a v s).kept.still = s.kept.still :=
  State.still_of_fixed (by simp)

@[simp] theorem State.clkWrite_kept (a : Nat) (v : Word) (s : State) :
    (State.clkWrite a v s).kept = s.kept := by
  unfold State.clkWrite
  repeat' first
    | with_reducible rfl
    | with_reducible assumption
    | (unfold x; clear x)
    | with_reducible refine keep_ite (fun _ => ?_) (fun _ => ?_)
    | (extract_lets +onlyGivenNames x; refine (show x.kept = s.kept → _ from ?_) ?_; clear_value x; intro hx)
    | (extract_lets +onlyGivenNames x; clear_value x)
    | (simp [*]; done)
    | with_reducible refine (State.each_kept _ _ (fun i s => ?_) _).trans ?_
    | with_reducible refine (State.startJob_kept _ _ _ _ (fun j s => ?_) _).trans ?_
    | with_reducible refine (foldl_kept _ (fun s i => ?_) _ _).trans ?_
    | (split; all_goals try (rename_i hx; replace hx := (congrArg (fun z => (Prod.snd z).kept) hx).symm; simp [*] at hx))

@[simp] theorem State.pwrWrite_kept (a : Nat) (v : Word) (s : State) :
    (State.pwrWrite a v s).kept = s.kept := by
  unfold State.pwrWrite
  repeat' first
    | with_reducible rfl
    | with_reducible assumption
    | (unfold x; clear x)
    | with_reducible refine keep_ite (fun _ => ?_) (fun _ => ?_)
    | (extract_lets +onlyGivenNames x; refine (show x.kept = s.kept → _ from ?_) ?_; clear_value x; intro hx)
    | (extract_lets +onlyGivenNames x; clear_value x)
    | (simp [*]; done)
    | with_reducible refine (State.each_kept _ _ (fun i s => ?_) _).trans ?_
    | with_reducible refine (State.startJob_kept _ _ _ _ (fun j s => ?_) _).trans ?_
    | with_reducible refine (foldl_kept _ (fun s i => ?_) _ _).trans ?_
    | (split; all_goals try (rename_i hx; replace hx := (congrArg (fun z => (Prod.snd z).kept) hx).symm; simp [*] at hx))

@[simp] theorem State.fltWrite_still (a : Nat) (v : Word) (s : State) :
    (State.fltWrite a v s).kept.still = s.kept.still := by
  unfold State.fltWrite
  repeat' first
    | with_reducible rfl
    | with_reducible assumption
    | (unfold x; clear x)
    | with_reducible refine keepStill_ite (fun _ => ?_) (fun _ => ?_)
    | (extract_lets +onlyGivenNames x; refine (show x.kept.still = s.kept.still → _ from ?_) ?_; clear_value x; intro hx)
    | (extract_lets +onlyGivenNames x; clear_value x)
    | (simp [*]; done)
    | with_reducible refine (State.each_still _ _ (fun i s => ?_) _).trans ?_
    | with_reducible refine (foldl_still _ (fun s i => ?_) _ _).trans ?_
    | (split; all_goals try (rename_i hx; replace hx := (congrArg (fun z => (Prod.snd z).kept.still) hx).symm; simp [*] at hx))

@[simp] theorem State.timeWrite_kept (a : Nat) (v : Word) (s : State) :
    (State.timeWrite a v s).kept = s.kept := by
  unfold State.timeWrite
  repeat' first
    | with_reducible rfl
    | with_reducible assumption
    | (unfold x; clear x)
    | with_reducible refine keep_ite (fun _ => ?_) (fun _ => ?_)
    | (extract_lets +onlyGivenNames x; refine (show x.kept = s.kept → _ from ?_) ?_; clear_value x; intro hx)
    | (extract_lets +onlyGivenNames x; clear_value x)
    | (simp [*]; done)
    | with_reducible refine (State.each_kept _ _ (fun i s => ?_) _).trans ?_
    | with_reducible refine (State.startJob_kept _ _ _ _ (fun j s => ?_) _).trans ?_
    | with_reducible refine (foldl_kept _ (fun s i => ?_) _ _).trans ?_
    | (split; all_goals try (rename_i hx; replace hx := (congrArg (fun z => (Prod.snd z).kept) hx).symm; simp [*] at hx))

@[simp] theorem State.guyWrite_kept (a : Nat) (v : Word) (s : State) :
    (State.guyWrite a v s).kept = s.kept := by
  unfold State.guyWrite
  repeat' first
    | with_reducible rfl
    | with_reducible assumption
    | (unfold x; clear x)
    | with_reducible refine keep_ite (fun _ => ?_) (fun _ => ?_)
    | (extract_lets +onlyGivenNames x; refine (show x.kept = s.kept → _ from ?_) ?_; clear_value x; intro hx)
    | (extract_lets +onlyGivenNames x; clear_value x)
    | (simp [*]; done)
    | with_reducible refine (State.each_kept _ _ (fun i s => ?_) _).trans ?_
    | with_reducible refine (State.startJob_kept _ _ _ _ (fun j s => ?_) _).trans ?_
    | with_reducible refine (foldl_kept _ (fun s i => ?_) _ _).trans ?_
    | (split; all_goals try (rename_i hx; replace hx := (congrArg (fun z => (Prod.snd z).kept) hx).symm; simp [*] at hx))

@[simp] theorem State.hostRegWrite_kept (p a : Nat) (v : Word) (s : State) : (State.hostRegWrite p a v s).kept = s.kept := by
  unfold State.hostRegWrite
  extract_lets +onlyGivenNames cfg
  have k (f : Port → Port) : (cfg f).kept = s.kept := by simp only [cfg]; split <;> simp
  clear_value cfg
  split
  all_goals first | exact k _ | (simp; done) | skip

@[simp] theorem State.spimWrite_kept (w : Who) (a : Nat) (v : Word) (s : State) :
    (State.spimWrite w a v s).kept = s.kept := by
  unfold State.spimWrite
  repeat' first
    | with_reducible rfl
    | with_reducible assumption
    | (unfold x; clear x)
    | with_reducible refine keep_ite (fun _ => ?_) (fun _ => ?_)
    | (extract_lets +onlyGivenNames x; refine (show x.kept = s.kept → _ from ?_) ?_; clear_value x; intro hx)
    | (extract_lets +onlyGivenNames x; clear_value x)
    | (simp [*]; done)
    | with_reducible refine (State.each_kept _ _ (fun i s => ?_) _).trans ?_
    | with_reducible refine (State.startJob_kept _ _ _ _ (fun j s => ?_) _).trans ?_
    | with_reducible refine (foldl_kept _ (fun s i => ?_) _ _).trans ?_
    | (split; all_goals try (rename_i hx; replace hx := (congrArg (fun z => (Prod.snd z).kept) hx).symm; simp [*] at hx))

@[simp] theorem State.imgWrite_rest (a : Nat) (v : Word) (s : State) :
    (State.imgWrite a v s).kept.rest = s.kept.rest := by
  unfold State.imgWrite
  repeat' first
    | with_reducible rfl
    | with_reducible assumption
    | (unfold x; clear x)
    | with_reducible refine keepRest_ite (fun _ => ?_) (fun _ => ?_)
    | (extract_lets +onlyGivenNames x; refine (show x.kept.rest = s.kept.rest → _ from ?_) ?_; clear_value x; intro hx)
    | (extract_lets +onlyGivenNames x; clear_value x)
    | (simp [*]; done)
    | with_reducible refine (State.each_rest _ _ (fun i s => ?_) _).trans ?_
    | with_reducible refine (State.startJob_rest _ _ _ _ (fun j s => ?_) _).trans ?_
    | with_reducible refine (foldl_rest _ (fun s i => ?_) _ _).trans ?_
    | (split; all_goals try (rename_i hx; replace hx := (congrArg (fun z => (Prod.snd z).kept.rest) hx).symm; simp [*] at hx))

@[simp] theorem State.imgWrite_still (a : Nat) (v : Word) (s : State) :
    (State.imgWrite a v s).kept.still = s.kept.still :=
  State.still_of_rest (by simp)

@[simp] theorem State.secWrite_fixed (a : Nat) (v : Word) (s : State) :
    (State.secWrite a v s).kept.fixed = s.kept.fixed := by
  unfold State.secWrite
  repeat' first
    | with_reducible rfl
    | with_reducible assumption
    | (unfold x; clear x)
    | with_reducible refine keepFixed_ite (fun _ => ?_) (fun _ => ?_)
    | (extract_lets +onlyGivenNames x; refine (show x.kept.fixed = s.kept.fixed → _ from ?_) ?_; clear_value x; intro hx)
    | (extract_lets +onlyGivenNames x; clear_value x)
    | (simp [*]; done)
    | with_reducible refine (State.each_fixed _ _ (fun i s => ?_) _).trans ?_
    | with_reducible refine (foldl_fixed _ (fun s i => ?_) _ _).trans ?_
    | (split; all_goals try (rename_i hx; replace hx := (congrArg (fun z => (Prod.snd z).kept.fixed) hx).symm; simp [*] at hx))

@[simp] theorem State.secWrite_still (a : Nat) (v : Word) (s : State) :
    (State.secWrite a v s).kept.still = s.kept.still :=
  State.still_of_fixed (by simp)

@[simp] theorem State.metRegWrite_kept (a : Nat) (v : Word) (s : State) :
    (State.metRegWrite a v s).kept = s.kept := by
  unfold State.metRegWrite
  repeat' first
    | with_reducible rfl
    | with_reducible assumption
    | (unfold x; clear x)
    | with_reducible refine keep_ite (fun _ => ?_) (fun _ => ?_)
    | (extract_lets +onlyGivenNames x; refine (show x.kept = s.kept → _ from ?_) ?_; clear_value x; intro hx)
    | (extract_lets +onlyGivenNames x; clear_value x)
    | (simp [*]; done)
    | with_reducible refine (State.each_kept _ _ (fun i s => ?_) _).trans ?_
    | with_reducible refine (State.startJob_kept _ _ _ _ (fun j s => ?_) _).trans ?_
    | with_reducible refine (foldl_kept _ (fun s i => ?_) _ _).trans ?_
    | (split; all_goals try (rename_i hx; replace hx := (congrArg (fun z => (Prod.snd z).kept) hx).symm; simp [*] at hx))

@[simp] theorem State.monRegWrite_kept (a : Nat) (v : Word) (s : State) : (State.monRegWrite a v s).kept = s.kept := by
  unfold State.monRegWrite
  split
  · split <;> rfl
  · split
    · split <;> simp
    · simp
    · simp
    · rfl

@[simp] theorem State.trigxWrite_kept (w : Who) (a : Nat) (v : Word) (s : State) :
    (State.trigxWrite w a v s).kept = s.kept := by
  unfold State.trigxWrite
  repeat' first
    | with_reducible rfl
    | with_reducible assumption
    | (unfold x; clear x)
    | with_reducible refine keep_ite (fun _ => ?_) (fun _ => ?_)
    | (extract_lets +onlyGivenNames x; refine (show x.kept = s.kept → _ from ?_) ?_; clear_value x; intro hx)
    | (extract_lets +onlyGivenNames x; clear_value x)
    | (simp [*]; done)
    | with_reducible refine (State.each_kept _ _ (fun i s => ?_) _).trans ?_
    | with_reducible refine (State.startJob_kept _ _ _ _ (fun j s => ?_) _).trans ?_
    | with_reducible refine (foldl_kept _ (fun s i => ?_) _ _).trans ?_
    | (split; all_goals try (rename_i hx; replace hx := (congrArg (fun z => (Prod.snd z).kept) hx).symm; simp [*] at hx))

@[simp] theorem State.acqWrite_kept (u a : Nat) (v : Word) (s : State) : (State.acqWrite u a v s).kept = s.kept := by
  unfold State.acqWrite
  extract_lets +onlyGivenNames x cfg
  have k (f : Acq → Acq) : (cfg f).kept = s.kept := by simp only [cfg]; split <;> simp
  clear_value cfg
  split
  all_goals first | exact k _ | (simp; done) | skip
  split
  · simp
  · exact k _

@[simp] theorem State.acqRdWrite_kept (r u : Nat) (hi : Bool) (v : Word) (s : State) :
    (State.acqRdWrite r u hi v s).kept = s.kept := by
  unfold State.acqRdWrite
  repeat' first
    | with_reducible rfl
    | with_reducible assumption
    | (unfold x; clear x)
    | with_reducible refine keep_ite (fun _ => ?_) (fun _ => ?_)
    | (extract_lets +onlyGivenNames x; refine (show x.kept = s.kept → _ from ?_) ?_; clear_value x; intro hx)
    | (extract_lets +onlyGivenNames x; clear_value x)
    | (simp [*]; done)
    | with_reducible refine (State.each_kept _ _ (fun i s => ?_) _).trans ?_
    | with_reducible refine (State.startJob_kept _ _ _ _ (fun j s => ?_) _).trans ?_
    | with_reducible refine (foldl_kept _ (fun s i => ?_) _ _).trans ?_
    | (split; all_goals try (rename_i hx; replace hx := (congrArg (fun z => (Prod.snd z).kept) hx).symm; simp [*] at hx))

@[simp] theorem State.raeWrite_kept (e a : Nat) (v : Word) (s : State) :
    (State.raeWrite e a v s).kept = s.kept := by
  unfold State.raeWrite
  repeat' first
    | with_reducible rfl
    | with_reducible assumption
    | (unfold x; clear x)
    | with_reducible refine keep_ite (fun _ => ?_) (fun _ => ?_)
    | (extract_lets +onlyGivenNames x; refine (show x.kept = s.kept → _ from ?_) ?_; clear_value x; intro hx)
    | (extract_lets +onlyGivenNames x; clear_value x)
    | (simp [*]; done)
    | with_reducible refine (State.each_kept _ _ (fun i s => ?_) _).trans ?_
    | with_reducible refine (State.startJob_kept _ _ _ _ (fun j s => ?_) _).trans ?_
    | with_reducible refine (foldl_kept _ (fun s i => ?_) _ _).trans ?_
    | (split; all_goals try (rename_i hx; replace hx := (congrArg (fun z => (Prod.snd z).kept) hx).symm; simp [*] at hx))

@[simp] theorem State.seqCtrl_kept (b : Nat) (v : Word) (s : State) :
    (State.seqCtrl b v s).kept = s.kept := by
  unfold State.seqCtrl
  repeat' first
    | with_reducible rfl
    | with_reducible assumption
    | (unfold x; clear x)
    | with_reducible refine keep_ite (fun _ => ?_) (fun _ => ?_)
    | (extract_lets +onlyGivenNames x; refine (show x.kept = s.kept → _ from ?_) ?_; clear_value x; intro hx)
    | (extract_lets +onlyGivenNames x; clear_value x)
    | (simp [*]; done)
    | with_reducible refine (State.each_kept _ _ (fun i s => ?_) _).trans ?_
    | with_reducible refine (State.startJob_kept _ _ _ _ (fun j s => ?_) _).trans ?_
    | with_reducible refine (foldl_kept _ (fun s i => ?_) _ _).trans ?_
    | (split; all_goals try (rename_i hx; replace hx := (congrArg (fun z => (Prod.snd z).kept) hx).symm; simp [*] at hx))

@[simp] theorem State.seqStill_kept (b : Nat) (f : State → State) (s : State) (h : (f s).kept = s.kept) :
    (State.seqStill b f s).kept = s.kept := by
  unfold State.seqStill
  split
  · simp
  · exact h

@[simp] theorem State.seqWrite_kept (b a : Nat) (v : Word) (s : State) : (State.seqWrite b a v s).kept = s.kept := by
  unfold State.seqWrite
  extract_lets +onlyGivenNames l cnt
  have k (f : Seq → Seq) : (cnt f).kept = s.kept := by simp only [cnt]; simp
  clear_value cnt
  split
  all_goals first | exact k _ | (simp; done) | skip
  split
  · simp
  · simp
  · split <;> simp
  · split
    · rfl
    · simp
  · split <;> simp
  · rfl

@[simp] theorem State.apgRegWrite_kept (b a : Nat) (v : Word) (s : State) :
    (State.apgRegWrite b a v s).kept = s.kept := by
  unfold State.apgRegWrite
  repeat' first
    | with_reducible rfl
    | with_reducible assumption
    | (unfold x; clear x)
    | with_reducible refine keep_ite (fun _ => ?_) (fun _ => ?_)
    | (extract_lets +onlyGivenNames x; refine (show x.kept = s.kept → _ from ?_) ?_; clear_value x; intro hx)
    | (extract_lets +onlyGivenNames x; clear_value x)
    | (simp [*]; done)
    | with_reducible refine (State.each_kept _ _ (fun i s => ?_) _).trans ?_
    | with_reducible refine (State.startJob_kept _ _ _ _ (fun j s => ?_) _).trans ?_
    | with_reducible refine (foldl_kept _ (fun s i => ?_) _ _).trans ?_
    | (split; all_goals try (rename_i hx; replace hx := (congrArg (fun z => (Prod.snd z).kept) hx).symm; simp [*] at hx))

@[simp] theorem State.tmgRegWrite_kept (b a : Nat) (v : Word) (s : State) :
    (State.tmgRegWrite b a v s).kept = s.kept := by
  unfold State.tmgRegWrite
  repeat' first
    | with_reducible rfl
    | with_reducible assumption
    | (unfold x; clear x)
    | with_reducible refine keep_ite (fun _ => ?_) (fun _ => ?_)
    | (extract_lets +onlyGivenNames x; refine (show x.kept = s.kept → _ from ?_) ?_; clear_value x; intro hx)
    | (extract_lets +onlyGivenNames x; clear_value x)
    | (simp [*]; done)
    | with_reducible refine (State.each_kept _ _ (fun i s => ?_) _).trans ?_
    | with_reducible refine (State.startJob_kept _ _ _ _ (fun j s => ?_) _).trans ?_
    | with_reducible refine (foldl_kept _ (fun s i => ?_) _ _).trans ?_
    | (split; all_goals try (rename_i hx; replace hx := (congrArg (fun z => (Prod.snd z).kept) hx).symm; simp [*] at hx))

@[simp] theorem State.peRegWrite_kept (b a : Nat) (v : Word) (s : State) :
    (State.peRegWrite b a v s).kept = s.kept := by
  unfold State.peRegWrite
  repeat' first
    | with_reducible rfl
    | with_reducible assumption
    | (unfold x; clear x)
    | with_reducible refine keep_ite (fun _ => ?_) (fun _ => ?_)
    | (extract_lets +onlyGivenNames x; refine (show x.kept = s.kept → _ from ?_) ?_; clear_value x; intro hx)
    | (extract_lets +onlyGivenNames x; clear_value x)
    | (simp [*]; done)
    | with_reducible refine (State.each_kept _ _ (fun i s => ?_) _).trans ?_
    | with_reducible refine (State.startJob_kept _ _ _ _ (fun j s => ?_) _).trans ?_
    | with_reducible refine (foldl_kept _ (fun s i => ?_) _ _).trans ?_
    | (split; all_goals try (rename_i hx; replace hx := (congrArg (fun z => (Prod.snd z).kept) hx).symm; simp [*] at hx))

@[simp] theorem State.prodHalf_kept (r b : Nat) (hi : Bool) (v : Word) (s : State) :
    (State.prodHalf r b hi v s).kept = s.kept := by
  unfold State.prodHalf; simp

@[simp] theorem State.strmRegWrite_kept (r b a : Nat) (v : Word) (s : State) :
    (State.strmRegWrite r b a v s).kept = s.kept := by
  unfold State.strmRegWrite
  repeat' first
    | with_reducible rfl
    | with_reducible assumption
    | (unfold x; clear x)
    | with_reducible refine keep_ite (fun _ => ?_) (fun _ => ?_)
    | (extract_lets +onlyGivenNames x; refine (show x.kept = s.kept → _ from ?_) ?_; clear_value x; intro hx)
    | (extract_lets +onlyGivenNames x; clear_value x)
    | (simp [*]; done)
    | with_reducible refine (State.each_kept _ _ (fun i s => ?_) _).trans ?_
    | with_reducible refine (State.startJob_kept _ _ _ _ (fun j s => ?_) _).trans ?_
    | with_reducible refine (foldl_kept _ (fun s i => ?_) _ _).trans ?_
    | (split; all_goals try (rename_i hx; replace hx := (congrArg (fun z => (Prod.snd z).kept) hx).symm; simp [*] at hx))

@[simp] theorem State.benchWrite_kept (r b a : Nat) (v : Word) (s : State) : (State.benchWrite r b a v s).kept = s.kept := by
  unfold State.benchWrite
  repeat' with_reducible refine keep_ite (fun _ => ?_) (fun _ => ?_)
  all_goals simp

@[simp] theorem State.regWrite_still (w : Who) (a : Nat) (v : Word) (s : State) :
    (State.regWrite w a v s).kept.still = s.kept.still := by
  unfold State.regWrite
  repeat' with_reducible refine keepStill_ite (fun _ => ?_) (fun _ => ?_)
  all_goals first | (simp; done) | skip
  extract_lets +onlyGivenNames u
  split <;> simp

@[simp] theorem State.commitRefuse_kept (a : Nat) (s : State) :
    (State.commitRefuse a s).kept = s.kept := by
  unfold State.commitRefuse; simp

@[simp] theorem State.writeWord_still (w : Who) (a : Nat) (v : Word) (s : State) :
    (State.writeWord w a v s).kept.still = s.kept.still := by
  unfold State.writeWord
  extract_lets +onlyGivenNames t
  have k : t.kept = s.kept := by simp only [t]; split <;> simp
  clear_value t
  refine Eq.trans (b := t.kept.still) ?_ (by rw [k])
  split
  · simp
  split
  · dsimp only
    split <;> simp
  repeat' with_reducible refine keepStill_ite (fun _ => ?_) (fun _ => ?_)
  all_goals simp

@[simp] theorem State.busWrite_still (w : Who) (a : Nat) (v : Word) (s : State) :
    (State.busWrite w a v s).kept.still = s.kept.still := by
  unfold State.busWrite
  split <;> simp

@[simp] theorem State.busWriteBytes_still (w : Who) (a : Nat) (v : Word) (full : Bool) (s : State) :
    (State.busWriteBytes w a v full s).kept.still = s.kept.still := by
  unfold State.busWriteBytes
  split
  · split <;> simp
  · simp

end Sys2Proof.Machine

namespace Sys2Proof.Machine

@[simp] theorem State.mspiReads_kept (as : List Nat) (s : State) : (State.mspiReads as s).2.kept = s.kept := by
  induction as generalizing s with
  | nil => rfl
  | cons a r ih =>
    unfold State.mspiReads
    split
    · exact ih s
    · exact (ih _).trans (State.readWord_kept ..)

@[simp] theorem State.mspiWrites_still (ws : List (Nat × Word)) (s : State) :
    (State.mspiWrites ws s).kept.still = s.kept.still := by
  induction ws generalizing s with
  | nil => rfl
  | cons w r ih =>
    obtain ⟨a, v⟩ := w
    unfold State.mspiWrites
    refine (ih _).trans ?_
    split
    · rfl
    · exact State.writeWord_still ..

@[simp] theorem State.openWords_kept (n : Nat) (s : State) : (State.openWords n s).2.kept = s.kept := by
  induction n generalizing s with
  | zero => rfl
  | succ n ih => simp [State.openWords, ih]

@[simp] theorem State.mspiAnswer_kept (words : Option (List Word)) (crcBad bad past : Bool) (s : State) :
    (State.mspiAnswer words crcBad bad past s).kept = s.kept := by
  unfold State.mspiAnswer; simp

@[simp] theorem State.mspiBegin_kept (s : State) :
    (State.mspiBegin s).kept = s.kept := by
  unfold State.mspiBegin; simp

@[simp] theorem State.mspiCut_kept (cut : Option Nat) (s : State) : (State.mspiCut cut s).kept = s.kept := by
  unfold State.mspiCut
  split <;> simp

@[simp] theorem State.mspiReadFrame_kept (op cnt : Nat) (addr : BitVec 24) (crc : Byte) (cut : Option Nat) (s : State) :
    (State.mspiReadFrame op cnt addr crc cut s).kept = s.kept := by
  unfold State.mspiReadFrame
  split
  · rfl
  extract_lets +onlyGivenNames t a bad
  have k : t.kept = s.kept := by simp [t]
  clear_value t
  split
  · simp [k]
  split
  · dsimp only; simp [k]
  extract_lets +onlyGivenNames as
  simp [k]

@[simp] theorem State.mspiWriteFrame_still (op : Nat) (addr : BitVec 24) (data : List Word) (crc : Byte) (s : State) :
    (State.mspiWriteFrame op addr data crc s).kept.still = s.kept.still := by
  unfold State.mspiWriteFrame
  split
  · rfl
  extract_lets +onlyGivenNames t a cnt bad
  have k : t.kept = s.kept := by simp [t]
  clear_value t
  split
  · simp [k]
  split
  · simp [k]
  simp [k]

@[simp] theorem State.mspiNoOp_kept (cmd : Byte) (addr : BitVec 24) (data : List Word) (crc : Byte) (s : State) :
    (State.mspiNoOp cmd addr data crc s).kept = s.kept := by
  unfold State.mspiNoOp; simp

@[simp] theorem State.mspiAnyFrame_still (cmd : Byte) (addr : BitVec 24) (data : List Word) (crc : Byte) (s : State) :
    (State.mspiAnyFrame cmd addr data crc s).kept.still = s.kept.still := by
  unfold State.mspiAnyFrame
  extract_lets +onlyGivenNames op cnt
  split
  · simp
  split
  · split <;> simp
  · simp

@[simp] theorem State.mspiAbort_kept (s : State) :
    (State.mspiAbort s).kept = s.kept := by
  unfold State.mspiAbort; simp

@[simp] theorem State.mspiOverclock_kept (s : State) :
    (State.mspiOverclock s).kept = s.kept := by
  unfold State.mspiOverclock; simp

@[simp] theorem State.metUndefined_kept (cmd : Byte) (addr : BitVec 24) (data : List Word) (crc : Byte) (s : State) :
    (State.metUndefined cmd addr data crc s).kept = s.kept := by
  unfold State.metUndefined; simp

end Sys2Proof.Machine

end
end

