-- ==== Sys2Proof/Laws/State.lean ====
section
/-! SUPPORT. The laws of State: each update changes its own part and leaves every other field, so that no proof unfolds a record update. -/

namespace Sys2Proof.Machine

/-- A change of one entry of benches leaves every other field. -/
@[simp] theorem State.modBench_fields (i : Nat) (f : Bench → Bench) (s : State) :
    (s.modBench i f).pending = s.pending ∧ (s.modBench i f).freeCtr = s.freeCtr ∧ (s.modBench i f).clk = s.clk ∧
    (s.modBench i f).time = s.time ∧ (s.modBench i f).guy = s.guy ∧ (s.modBench i f).pwr = s.pwr ∧
    (s.modBench i f).top = s.top ∧ (s.modBench i f).flt = s.flt ∧ (s.modBench i f).sec = s.sec ∧
    (s.modBench i f).img = s.img ∧ (s.modBench i f).spim = s.spim ∧ (s.modBench i f).met = s.met ∧
    (s.modBench i f).trigx = s.trigx ∧ (s.modBench i f).gangs = s.gangs ∧ (s.modBench i f).sites = s.sites ∧
    (s.modBench i f).raes = s.raes ∧ (s.modBench i f).acqs = s.acqs ∧ (s.modBench i f).mons = s.mons ∧
    (s.modBench i f).monErr = s.monErr ∧ (s.modBench i f).monErrCode = s.monErrCode ∧
    (s.modBench i f).monErrAddr = s.monErrAddr ∧ (s.modBench i f).ports = s.ports ∧
    (s.modBench i f).readers = s.readers ∧ (s.modBench i f).regions = s.regions ∧
    (s.modBench i f).partPort = s.partPort ∧ (s.modBench i f).enginePart = s.enginePart ∧
    (s.modBench i f).hbm = s.hbm ∧ (s.modBench i f).hbmPast = s.hbmPast :=
  ⟨rfl, rfl, rfl, rfl, rfl, rfl, rfl, rfl, rfl, rfl, rfl, rfl, rfl, rfl, rfl, rfl, rfl, rfl, rfl, rfl, rfl, rfl, rfl, rfl, rfl, rfl, rfl, rfl⟩

@[simp] theorem State.modBench_bench (i : Nat) (f : Bench → Bench) (s : State) : (s.modBench i f).bench i = f (s.bench i) :=
  tget_tmod_same ..

theorem State.modBench_bench_other {i j : Nat} (f : Bench → Bench) (s : State) (h : i ≠ j) : (s.modBench i f).bench j = s.bench j :=
  tget_tmod_other _ _ _ h

/-- A change of one entry of gangs leaves every other field. -/
@[simp] theorem State.modGang_fields (i : Nat) (f : Gang → Gang) (s : State) :
    (s.modGang i f).pending = s.pending ∧ (s.modGang i f).freeCtr = s.freeCtr ∧ (s.modGang i f).clk = s.clk ∧
    (s.modGang i f).time = s.time ∧ (s.modGang i f).guy = s.guy ∧ (s.modGang i f).pwr = s.pwr ∧
    (s.modGang i f).top = s.top ∧ (s.modGang i f).flt = s.flt ∧ (s.modGang i f).sec = s.sec ∧
    (s.modGang i f).img = s.img ∧ (s.modGang i f).spim = s.spim ∧ (s.modGang i f).met = s.met ∧
    (s.modGang i f).trigx = s.trigx ∧ (s.modGang i f).benches = s.benches ∧ (s.modGang i f).sites = s.sites ∧
    (s.modGang i f).raes = s.raes ∧ (s.modGang i f).acqs = s.acqs ∧ (s.modGang i f).mons = s.mons ∧
    (s.modGang i f).monErr = s.monErr ∧ (s.modGang i f).monErrCode = s.monErrCode ∧
    (s.modGang i f).monErrAddr = s.monErrAddr ∧ (s.modGang i f).ports = s.ports ∧
    (s.modGang i f).readers = s.readers ∧ (s.modGang i f).regions = s.regions ∧
    (s.modGang i f).partPort = s.partPort ∧ (s.modGang i f).enginePart = s.enginePart ∧ (s.modGang i f).hbm = s.hbm ∧ (s.modGang i f).hbmPast = s.hbmPast :=
  ⟨rfl, rfl, rfl, rfl, rfl, rfl, rfl, rfl, rfl, rfl, rfl, rfl, rfl, rfl, rfl, rfl, rfl, rfl, rfl, rfl, rfl, rfl, rfl, rfl, rfl, rfl, rfl, rfl⟩

@[simp] theorem State.modGang_gang (i : Nat) (f : Gang → Gang) (s : State) : (s.modGang i f).gang i = f (s.gang i) :=
  tget_tmod_same ..

theorem State.modGang_gang_other {i j : Nat} (f : Gang → Gang) (s : State) (h : i ≠ j) : (s.modGang i f).gang j = s.gang j :=
  tget_tmod_other _ _ _ h

/-- A change of one entry of sites leaves every other field. -/
@[simp] theorem State.modSite_fields (i : Nat) (f : Site → Site) (s : State) :
    (s.modSite i f).pending = s.pending ∧ (s.modSite i f).freeCtr = s.freeCtr ∧ (s.modSite i f).clk = s.clk ∧
    (s.modSite i f).time = s.time ∧ (s.modSite i f).guy = s.guy ∧ (s.modSite i f).pwr = s.pwr ∧
    (s.modSite i f).top = s.top ∧ (s.modSite i f).flt = s.flt ∧ (s.modSite i f).sec = s.sec ∧
    (s.modSite i f).img = s.img ∧ (s.modSite i f).spim = s.spim ∧ (s.modSite i f).met = s.met ∧
    (s.modSite i f).trigx = s.trigx ∧ (s.modSite i f).benches = s.benches ∧ (s.modSite i f).gangs = s.gangs ∧
    (s.modSite i f).raes = s.raes ∧ (s.modSite i f).acqs = s.acqs ∧ (s.modSite i f).mons = s.mons ∧
    (s.modSite i f).monErr = s.monErr ∧ (s.modSite i f).monErrCode = s.monErrCode ∧
    (s.modSite i f).monErrAddr = s.monErrAddr ∧ (s.modSite i f).ports = s.ports ∧
    (s.modSite i f).readers = s.readers ∧ (s.modSite i f).regions = s.regions ∧
    (s.modSite i f).partPort = s.partPort ∧ (s.modSite i f).enginePart = s.enginePart ∧ (s.modSite i f).hbm = s.hbm ∧ (s.modSite i f).hbmPast = s.hbmPast :=
  ⟨rfl, rfl, rfl, rfl, rfl, rfl, rfl, rfl, rfl, rfl, rfl, rfl, rfl, rfl, rfl, rfl, rfl, rfl, rfl, rfl, rfl, rfl, rfl, rfl, rfl, rfl, rfl, rfl⟩

@[simp] theorem State.modSite_site (i : Nat) (f : Site → Site) (s : State) : (s.modSite i f).site i = f (s.site i) :=
  tget_tmod_same ..

theorem State.modSite_site_other {i j : Nat} (f : Site → Site) (s : State) (h : i ≠ j) : (s.modSite i f).site j = s.site j :=
  tget_tmod_other _ _ _ h

/-- A change of one entry of raes leaves every other field. -/
@[simp] theorem State.modRae_fields (i : Nat) (f : Rae → Rae) (s : State) :
    (s.modRae i f).pending = s.pending ∧ (s.modRae i f).freeCtr = s.freeCtr ∧ (s.modRae i f).clk = s.clk ∧
    (s.modRae i f).time = s.time ∧ (s.modRae i f).guy = s.guy ∧ (s.modRae i f).pwr = s.pwr ∧
    (s.modRae i f).top = s.top ∧ (s.modRae i f).flt = s.flt ∧ (s.modRae i f).sec = s.sec ∧
    (s.modRae i f).img = s.img ∧ (s.modRae i f).spim = s.spim ∧ (s.modRae i f).met = s.met ∧
    (s.modRae i f).trigx = s.trigx ∧ (s.modRae i f).benches = s.benches ∧ (s.modRae i f).gangs = s.gangs ∧
    (s.modRae i f).sites = s.sites ∧ (s.modRae i f).acqs = s.acqs ∧ (s.modRae i f).mons = s.mons ∧
    (s.modRae i f).monErr = s.monErr ∧ (s.modRae i f).monErrCode = s.monErrCode ∧
    (s.modRae i f).monErrAddr = s.monErrAddr ∧ (s.modRae i f).ports = s.ports ∧ (s.modRae i f).readers = s.readers ∧
    (s.modRae i f).regions = s.regions ∧ (s.modRae i f).partPort = s.partPort ∧
    (s.modRae i f).enginePart = s.enginePart ∧ (s.modRae i f).hbm = s.hbm ∧ (s.modRae i f).hbmPast = s.hbmPast :=
  ⟨rfl, rfl, rfl, rfl, rfl, rfl, rfl, rfl, rfl, rfl, rfl, rfl, rfl, rfl, rfl, rfl, rfl, rfl, rfl, rfl, rfl, rfl, rfl, rfl, rfl, rfl, rfl, rfl⟩

@[simp] theorem State.modRae_rae (i : Nat) (f : Rae → Rae) (s : State) : (s.modRae i f).rae i = f (s.rae i) :=
  tget_tmod_same ..

theorem State.modRae_rae_other {i j : Nat} (f : Rae → Rae) (s : State) (h : i ≠ j) : (s.modRae i f).rae j = s.rae j :=
  tget_tmod_other _ _ _ h

/-- A change of one entry of acqs leaves every other field. -/
@[simp] theorem State.modAcq_fields (i : Nat) (f : Acq → Acq) (s : State) :
    (s.modAcq i f).pending = s.pending ∧ (s.modAcq i f).freeCtr = s.freeCtr ∧ (s.modAcq i f).clk = s.clk ∧
    (s.modAcq i f).time = s.time ∧ (s.modAcq i f).guy = s.guy ∧ (s.modAcq i f).pwr = s.pwr ∧
    (s.modAcq i f).top = s.top ∧ (s.modAcq i f).flt = s.flt ∧ (s.modAcq i f).sec = s.sec ∧
    (s.modAcq i f).img = s.img ∧ (s.modAcq i f).spim = s.spim ∧ (s.modAcq i f).met = s.met ∧
    (s.modAcq i f).trigx = s.trigx ∧ (s.modAcq i f).benches = s.benches ∧ (s.modAcq i f).gangs = s.gangs ∧
    (s.modAcq i f).sites = s.sites ∧ (s.modAcq i f).raes = s.raes ∧ (s.modAcq i f).mons = s.mons ∧
    (s.modAcq i f).monErr = s.monErr ∧ (s.modAcq i f).monErrCode = s.monErrCode ∧
    (s.modAcq i f).monErrAddr = s.monErrAddr ∧ (s.modAcq i f).ports = s.ports ∧ (s.modAcq i f).readers = s.readers ∧
    (s.modAcq i f).regions = s.regions ∧ (s.modAcq i f).partPort = s.partPort ∧
    (s.modAcq i f).enginePart = s.enginePart ∧ (s.modAcq i f).hbm = s.hbm ∧ (s.modAcq i f).hbmPast = s.hbmPast :=
  ⟨rfl, rfl, rfl, rfl, rfl, rfl, rfl, rfl, rfl, rfl, rfl, rfl, rfl, rfl, rfl, rfl, rfl, rfl, rfl, rfl, rfl, rfl, rfl, rfl, rfl, rfl, rfl, rfl⟩

@[simp] theorem State.modAcq_acq (i : Nat) (f : Acq → Acq) (s : State) : (s.modAcq i f).acq i = f (s.acq i) :=
  tget_tmod_same ..

theorem State.modAcq_acq_other {i j : Nat} (f : Acq → Acq) (s : State) (h : i ≠ j) : (s.modAcq i f).acq j = s.acq j :=
  tget_tmod_other _ _ _ h

/-- A change of one entry of mons leaves every other field. -/
@[simp] theorem State.modMon_fields (i : Nat) (f : Mon → Mon) (s : State) :
    (s.modMon i f).pending = s.pending ∧ (s.modMon i f).freeCtr = s.freeCtr ∧ (s.modMon i f).clk = s.clk ∧
    (s.modMon i f).time = s.time ∧ (s.modMon i f).guy = s.guy ∧ (s.modMon i f).pwr = s.pwr ∧
    (s.modMon i f).top = s.top ∧ (s.modMon i f).flt = s.flt ∧ (s.modMon i f).sec = s.sec ∧
    (s.modMon i f).img = s.img ∧ (s.modMon i f).spim = s.spim ∧ (s.modMon i f).met = s.met ∧
    (s.modMon i f).trigx = s.trigx ∧ (s.modMon i f).benches = s.benches ∧ (s.modMon i f).gangs = s.gangs ∧
    (s.modMon i f).sites = s.sites ∧ (s.modMon i f).raes = s.raes ∧ (s.modMon i f).acqs = s.acqs ∧
    (s.modMon i f).monErr = s.monErr ∧ (s.modMon i f).monErrCode = s.monErrCode ∧
    (s.modMon i f).monErrAddr = s.monErrAddr ∧ (s.modMon i f).ports = s.ports ∧ (s.modMon i f).readers = s.readers ∧
    (s.modMon i f).regions = s.regions ∧ (s.modMon i f).partPort = s.partPort ∧
    (s.modMon i f).enginePart = s.enginePart ∧ (s.modMon i f).hbm = s.hbm ∧ (s.modMon i f).hbmPast = s.hbmPast :=
  ⟨rfl, rfl, rfl, rfl, rfl, rfl, rfl, rfl, rfl, rfl, rfl, rfl, rfl, rfl, rfl, rfl, rfl, rfl, rfl, rfl, rfl, rfl, rfl, rfl, rfl, rfl, rfl, rfl⟩

@[simp] theorem State.modMon_mon (i : Nat) (f : Mon → Mon) (s : State) : (s.modMon i f).mon i = f (s.mon i) :=
  tget_tmod_same ..

theorem State.modMon_mon_other {i j : Nat} (f : Mon → Mon) (s : State) (h : i ≠ j) : (s.modMon i f).mon j = s.mon j :=
  tget_tmod_other _ _ _ h

/-- A change of one entry of ports leaves every other field. -/
@[simp] theorem State.modPort_fields (i : Nat) (f : Port → Port) (s : State) :
    (s.modPort i f).pending = s.pending ∧ (s.modPort i f).freeCtr = s.freeCtr ∧ (s.modPort i f).clk = s.clk ∧
    (s.modPort i f).time = s.time ∧ (s.modPort i f).guy = s.guy ∧ (s.modPort i f).pwr = s.pwr ∧
    (s.modPort i f).top = s.top ∧ (s.modPort i f).flt = s.flt ∧ (s.modPort i f).sec = s.sec ∧
    (s.modPort i f).img = s.img ∧ (s.modPort i f).spim = s.spim ∧ (s.modPort i f).met = s.met ∧
    (s.modPort i f).trigx = s.trigx ∧ (s.modPort i f).benches = s.benches ∧ (s.modPort i f).gangs = s.gangs ∧
    (s.modPort i f).sites = s.sites ∧ (s.modPort i f).raes = s.raes ∧ (s.modPort i f).acqs = s.acqs ∧
    (s.modPort i f).mons = s.mons ∧ (s.modPort i f).monErr = s.monErr ∧ (s.modPort i f).monErrCode = s.monErrCode ∧
    (s.modPort i f).monErrAddr = s.monErrAddr ∧ (s.modPort i f).readers = s.readers ∧
    (s.modPort i f).regions = s.regions ∧ (s.modPort i f).partPort = s.partPort ∧
    (s.modPort i f).enginePart = s.enginePart ∧ (s.modPort i f).hbm = s.hbm ∧ (s.modPort i f).hbmPast = s.hbmPast :=
  ⟨rfl, rfl, rfl, rfl, rfl, rfl, rfl, rfl, rfl, rfl, rfl, rfl, rfl, rfl, rfl, rfl, rfl, rfl, rfl, rfl, rfl, rfl, rfl, rfl, rfl, rfl, rfl, rfl⟩

@[simp] theorem State.modPort_port (i : Nat) (f : Port → Port) (s : State) : (s.modPort i f).port i = f (s.port i) :=
  tget_tmod_same ..

theorem State.modPort_port_other {i j : Nat} (f : Port → Port) (s : State) (h : i ≠ j) : (s.modPort i f).port j = s.port j :=
  tget_tmod_other _ _ _ h

/-- A change of one entry of readers leaves every other field. -/
@[simp] theorem State.modReader_fields (i : Nat) (f : Reader → Reader) (s : State) :
    (s.modReader i f).pending = s.pending ∧ (s.modReader i f).freeCtr = s.freeCtr ∧ (s.modReader i f).clk = s.clk ∧
    (s.modReader i f).time = s.time ∧ (s.modReader i f).guy = s.guy ∧ (s.modReader i f).pwr = s.pwr ∧
    (s.modReader i f).top = s.top ∧ (s.modReader i f).flt = s.flt ∧ (s.modReader i f).sec = s.sec ∧
    (s.modReader i f).img = s.img ∧ (s.modReader i f).spim = s.spim ∧ (s.modReader i f).met = s.met ∧
    (s.modReader i f).trigx = s.trigx ∧ (s.modReader i f).benches = s.benches ∧ (s.modReader i f).gangs = s.gangs ∧
    (s.modReader i f).sites = s.sites ∧ (s.modReader i f).raes = s.raes ∧ (s.modReader i f).acqs = s.acqs ∧
    (s.modReader i f).mons = s.mons ∧ (s.modReader i f).monErr = s.monErr ∧
    (s.modReader i f).monErrCode = s.monErrCode ∧ (s.modReader i f).monErrAddr = s.monErrAddr ∧
    (s.modReader i f).ports = s.ports ∧ (s.modReader i f).regions = s.regions ∧
    (s.modReader i f).partPort = s.partPort ∧ (s.modReader i f).enginePart = s.enginePart ∧
    (s.modReader i f).hbm = s.hbm ∧ (s.modReader i f).hbmPast = s.hbmPast :=
  ⟨rfl, rfl, rfl, rfl, rfl, rfl, rfl, rfl, rfl, rfl, rfl, rfl, rfl, rfl, rfl, rfl, rfl, rfl, rfl, rfl, rfl, rfl, rfl, rfl, rfl, rfl, rfl, rfl⟩

@[simp] theorem State.modReader_reader (i : Nat) (f : Reader → Reader) (s : State) : (s.modReader i f).reader i = f (s.reader i) :=
  tget_tmod_same ..

theorem State.modReader_reader_other {i j : Nat} (f : Reader → Reader) (s : State) (h : i ≠ j) : (s.modReader i f).reader j = s.reader j :=
  tget_tmod_other _ _ _ h

/-- A change of time leaves every other field. -/
@[simp] theorem State.modTime_fields (f : Time → Time) (s : State) :
    (s.modTime f).pending = s.pending ∧ (s.modTime f).freeCtr = s.freeCtr ∧ (s.modTime f).clk = s.clk ∧
    (s.modTime f).guy = s.guy ∧ (s.modTime f).pwr = s.pwr ∧ (s.modTime f).top = s.top ∧ (s.modTime f).flt = s.flt ∧
    (s.modTime f).sec = s.sec ∧ (s.modTime f).img = s.img ∧ (s.modTime f).spim = s.spim ∧ (s.modTime f).met = s.met ∧
    (s.modTime f).trigx = s.trigx ∧ (s.modTime f).benches = s.benches ∧ (s.modTime f).gangs = s.gangs ∧
    (s.modTime f).sites = s.sites ∧ (s.modTime f).raes = s.raes ∧ (s.modTime f).acqs = s.acqs ∧
    (s.modTime f).mons = s.mons ∧ (s.modTime f).monErr = s.monErr ∧ (s.modTime f).monErrCode = s.monErrCode ∧
    (s.modTime f).monErrAddr = s.monErrAddr ∧ (s.modTime f).ports = s.ports ∧ (s.modTime f).readers = s.readers ∧
    (s.modTime f).regions = s.regions ∧ (s.modTime f).partPort = s.partPort ∧
    (s.modTime f).enginePart = s.enginePart ∧ (s.modTime f).hbm = s.hbm ∧ (s.modTime f).hbmPast = s.hbmPast :=
  ⟨rfl, rfl, rfl, rfl, rfl, rfl, rfl, rfl, rfl, rfl, rfl, rfl, rfl, rfl, rfl, rfl, rfl, rfl, rfl, rfl, rfl, rfl, rfl, rfl, rfl, rfl, rfl, rfl⟩

@[simp] theorem State.modTime_time (f : Time → Time) (s : State) : (s.modTime f).time = f s.time := rfl

/-- A change of clk leaves every other field. -/
@[simp] theorem State.modClk_fields (f : Clk → Clk) (s : State) :
    (s.modClk f).pending = s.pending ∧ (s.modClk f).freeCtr = s.freeCtr ∧ (s.modClk f).time = s.time ∧
    (s.modClk f).guy = s.guy ∧ (s.modClk f).pwr = s.pwr ∧ (s.modClk f).top = s.top ∧ (s.modClk f).flt = s.flt ∧
    (s.modClk f).sec = s.sec ∧ (s.modClk f).img = s.img ∧ (s.modClk f).spim = s.spim ∧ (s.modClk f).met = s.met ∧
    (s.modClk f).trigx = s.trigx ∧ (s.modClk f).benches = s.benches ∧ (s.modClk f).gangs = s.gangs ∧
    (s.modClk f).sites = s.sites ∧ (s.modClk f).raes = s.raes ∧ (s.modClk f).acqs = s.acqs ∧
    (s.modClk f).mons = s.mons ∧ (s.modClk f).monErr = s.monErr ∧ (s.modClk f).monErrCode = s.monErrCode ∧
    (s.modClk f).monErrAddr = s.monErrAddr ∧ (s.modClk f).ports = s.ports ∧ (s.modClk f).readers = s.readers ∧
    (s.modClk f).regions = s.regions ∧ (s.modClk f).partPort = s.partPort ∧ (s.modClk f).enginePart = s.enginePart ∧
    (s.modClk f).hbm = s.hbm ∧ (s.modClk f).hbmPast = s.hbmPast :=
  ⟨rfl, rfl, rfl, rfl, rfl, rfl, rfl, rfl, rfl, rfl, rfl, rfl, rfl, rfl, rfl, rfl, rfl, rfl, rfl, rfl, rfl, rfl, rfl, rfl, rfl, rfl, rfl, rfl⟩

@[simp] theorem State.modClk_clk (f : Clk → Clk) (s : State) : (s.modClk f).clk = f s.clk := rfl

/-- A change of guy leaves every other field. -/
@[simp] theorem State.modGuy_fields (f : Guy → Guy) (s : State) :
    (s.modGuy f).pending = s.pending ∧ (s.modGuy f).freeCtr = s.freeCtr ∧ (s.modGuy f).clk = s.clk ∧
    (s.modGuy f).time = s.time ∧ (s.modGuy f).pwr = s.pwr ∧ (s.modGuy f).top = s.top ∧ (s.modGuy f).flt = s.flt ∧
    (s.modGuy f).sec = s.sec ∧ (s.modGuy f).img = s.img ∧ (s.modGuy f).spim = s.spim ∧ (s.modGuy f).met = s.met ∧
    (s.modGuy f).trigx = s.trigx ∧ (s.modGuy f).benches = s.benches ∧ (s.modGuy f).gangs = s.gangs ∧
    (s.modGuy f).sites = s.sites ∧ (s.modGuy f).raes = s.raes ∧ (s.modGuy f).acqs = s.acqs ∧
    (s.modGuy f).mons = s.mons ∧ (s.modGuy f).monErr = s.monErr ∧ (s.modGuy f).monErrCode = s.monErrCode ∧
    (s.modGuy f).monErrAddr = s.monErrAddr ∧ (s.modGuy f).ports = s.ports ∧ (s.modGuy f).readers = s.readers ∧
    (s.modGuy f).regions = s.regions ∧ (s.modGuy f).partPort = s.partPort ∧ (s.modGuy f).enginePart = s.enginePart ∧
    (s.modGuy f).hbm = s.hbm ∧ (s.modGuy f).hbmPast = s.hbmPast :=
  ⟨rfl, rfl, rfl, rfl, rfl, rfl, rfl, rfl, rfl, rfl, rfl, rfl, rfl, rfl, rfl, rfl, rfl, rfl, rfl, rfl, rfl, rfl, rfl, rfl, rfl, rfl, rfl, rfl⟩

@[simp] theorem State.modGuy_guy (f : Guy → Guy) (s : State) : (s.modGuy f).guy = f s.guy := rfl

/-- A change of pwr leaves every other field. -/
@[simp] theorem State.modPwr_fields (f : Pwr → Pwr) (s : State) :
    (s.modPwr f).pending = s.pending ∧ (s.modPwr f).freeCtr = s.freeCtr ∧ (s.modPwr f).clk = s.clk ∧
    (s.modPwr f).time = s.time ∧ (s.modPwr f).guy = s.guy ∧ (s.modPwr f).top = s.top ∧ (s.modPwr f).flt = s.flt ∧
    (s.modPwr f).sec = s.sec ∧ (s.modPwr f).img = s.img ∧ (s.modPwr f).spim = s.spim ∧ (s.modPwr f).met = s.met ∧
    (s.modPwr f).trigx = s.trigx ∧ (s.modPwr f).benches = s.benches ∧ (s.modPwr f).gangs = s.gangs ∧
    (s.modPwr f).sites = s.sites ∧ (s.modPwr f).raes = s.raes ∧ (s.modPwr f).acqs = s.acqs ∧
    (s.modPwr f).mons = s.mons ∧ (s.modPwr f).monErr = s.monErr ∧ (s.modPwr f).monErrCode = s.monErrCode ∧
    (s.modPwr f).monErrAddr = s.monErrAddr ∧ (s.modPwr f).ports = s.ports ∧ (s.modPwr f).readers = s.readers ∧
    (s.modPwr f).regions = s.regions ∧ (s.modPwr f).partPort = s.partPort ∧ (s.modPwr f).enginePart = s.enginePart ∧
    (s.modPwr f).hbm = s.hbm ∧ (s.modPwr f).hbmPast = s.hbmPast :=
  ⟨rfl, rfl, rfl, rfl, rfl, rfl, rfl, rfl, rfl, rfl, rfl, rfl, rfl, rfl, rfl, rfl, rfl, rfl, rfl, rfl, rfl, rfl, rfl, rfl, rfl, rfl, rfl, rfl⟩

@[simp] theorem State.modPwr_pwr (f : Pwr → Pwr) (s : State) : (s.modPwr f).pwr = f s.pwr := rfl

/-- A change of top leaves every other field. -/
@[simp] theorem State.modTop_fields (f : Top → Top) (s : State) :
    (s.modTop f).pending = s.pending ∧ (s.modTop f).freeCtr = s.freeCtr ∧ (s.modTop f).clk = s.clk ∧
    (s.modTop f).time = s.time ∧ (s.modTop f).guy = s.guy ∧ (s.modTop f).pwr = s.pwr ∧ (s.modTop f).flt = s.flt ∧
    (s.modTop f).sec = s.sec ∧ (s.modTop f).img = s.img ∧ (s.modTop f).spim = s.spim ∧ (s.modTop f).met = s.met ∧
    (s.modTop f).trigx = s.trigx ∧ (s.modTop f).benches = s.benches ∧ (s.modTop f).gangs = s.gangs ∧
    (s.modTop f).sites = s.sites ∧ (s.modTop f).raes = s.raes ∧ (s.modTop f).acqs = s.acqs ∧
    (s.modTop f).mons = s.mons ∧ (s.modTop f).monErr = s.monErr ∧ (s.modTop f).monErrCode = s.monErrCode ∧
    (s.modTop f).monErrAddr = s.monErrAddr ∧ (s.modTop f).ports = s.ports ∧ (s.modTop f).readers = s.readers ∧
    (s.modTop f).regions = s.regions ∧ (s.modTop f).partPort = s.partPort ∧ (s.modTop f).enginePart = s.enginePart ∧
    (s.modTop f).hbm = s.hbm ∧ (s.modTop f).hbmPast = s.hbmPast :=
  ⟨rfl, rfl, rfl, rfl, rfl, rfl, rfl, rfl, rfl, rfl, rfl, rfl, rfl, rfl, rfl, rfl, rfl, rfl, rfl, rfl, rfl, rfl, rfl, rfl, rfl, rfl, rfl, rfl⟩

@[simp] theorem State.modTop_top (f : Top → Top) (s : State) : (s.modTop f).top = f s.top := rfl

/-- A change of flt leaves every other field. -/
@[simp] theorem State.modFlt_fields (f : Flt → Flt) (s : State) :
    (s.modFlt f).pending = s.pending ∧ (s.modFlt f).freeCtr = s.freeCtr ∧ (s.modFlt f).clk = s.clk ∧
    (s.modFlt f).time = s.time ∧ (s.modFlt f).guy = s.guy ∧ (s.modFlt f).pwr = s.pwr ∧ (s.modFlt f).top = s.top ∧
    (s.modFlt f).sec = s.sec ∧ (s.modFlt f).img = s.img ∧ (s.modFlt f).spim = s.spim ∧ (s.modFlt f).met = s.met ∧
    (s.modFlt f).trigx = s.trigx ∧ (s.modFlt f).benches = s.benches ∧ (s.modFlt f).gangs = s.gangs ∧
    (s.modFlt f).sites = s.sites ∧ (s.modFlt f).raes = s.raes ∧ (s.modFlt f).acqs = s.acqs ∧
    (s.modFlt f).mons = s.mons ∧ (s.modFlt f).monErr = s.monErr ∧ (s.modFlt f).monErrCode = s.monErrCode ∧
    (s.modFlt f).monErrAddr = s.monErrAddr ∧ (s.modFlt f).ports = s.ports ∧ (s.modFlt f).readers = s.readers ∧
    (s.modFlt f).regions = s.regions ∧ (s.modFlt f).partPort = s.partPort ∧ (s.modFlt f).enginePart = s.enginePart ∧
    (s.modFlt f).hbm = s.hbm ∧ (s.modFlt f).hbmPast = s.hbmPast :=
  ⟨rfl, rfl, rfl, rfl, rfl, rfl, rfl, rfl, rfl, rfl, rfl, rfl, rfl, rfl, rfl, rfl, rfl, rfl, rfl, rfl, rfl, rfl, rfl, rfl, rfl, rfl, rfl, rfl⟩

@[simp] theorem State.modFlt_flt (f : Flt → Flt) (s : State) : (s.modFlt f).flt = f s.flt := rfl

/-- A change of sec leaves every other field. -/
@[simp] theorem State.modSec_fields (f : Sec → Sec) (s : State) :
    (s.modSec f).pending = s.pending ∧ (s.modSec f).freeCtr = s.freeCtr ∧ (s.modSec f).clk = s.clk ∧
    (s.modSec f).time = s.time ∧ (s.modSec f).guy = s.guy ∧ (s.modSec f).pwr = s.pwr ∧ (s.modSec f).top = s.top ∧
    (s.modSec f).flt = s.flt ∧ (s.modSec f).img = s.img ∧ (s.modSec f).spim = s.spim ∧ (s.modSec f).met = s.met ∧
    (s.modSec f).trigx = s.trigx ∧ (s.modSec f).benches = s.benches ∧ (s.modSec f).gangs = s.gangs ∧
    (s.modSec f).sites = s.sites ∧ (s.modSec f).raes = s.raes ∧ (s.modSec f).acqs = s.acqs ∧
    (s.modSec f).mons = s.mons ∧ (s.modSec f).monErr = s.monErr ∧ (s.modSec f).monErrCode = s.monErrCode ∧
    (s.modSec f).monErrAddr = s.monErrAddr ∧ (s.modSec f).ports = s.ports ∧ (s.modSec f).readers = s.readers ∧
    (s.modSec f).regions = s.regions ∧ (s.modSec f).partPort = s.partPort ∧ (s.modSec f).enginePart = s.enginePart ∧
    (s.modSec f).hbm = s.hbm ∧ (s.modSec f).hbmPast = s.hbmPast :=
  ⟨rfl, rfl, rfl, rfl, rfl, rfl, rfl, rfl, rfl, rfl, rfl, rfl, rfl, rfl, rfl, rfl, rfl, rfl, rfl, rfl, rfl, rfl, rfl, rfl, rfl, rfl, rfl, rfl⟩

@[simp] theorem State.modSec_sec (f : Sec → Sec) (s : State) : (s.modSec f).sec = f s.sec := rfl

/-- A change of img leaves every other field. -/
@[simp] theorem State.modImg_fields (f : Img → Img) (s : State) :
    (s.modImg f).pending = s.pending ∧ (s.modImg f).freeCtr = s.freeCtr ∧ (s.modImg f).clk = s.clk ∧
    (s.modImg f).time = s.time ∧ (s.modImg f).guy = s.guy ∧ (s.modImg f).pwr = s.pwr ∧ (s.modImg f).top = s.top ∧
    (s.modImg f).flt = s.flt ∧ (s.modImg f).sec = s.sec ∧ (s.modImg f).spim = s.spim ∧ (s.modImg f).met = s.met ∧
    (s.modImg f).trigx = s.trigx ∧ (s.modImg f).benches = s.benches ∧ (s.modImg f).gangs = s.gangs ∧
    (s.modImg f).sites = s.sites ∧ (s.modImg f).raes = s.raes ∧ (s.modImg f).acqs = s.acqs ∧
    (s.modImg f).mons = s.mons ∧ (s.modImg f).monErr = s.monErr ∧ (s.modImg f).monErrCode = s.monErrCode ∧
    (s.modImg f).monErrAddr = s.monErrAddr ∧ (s.modImg f).ports = s.ports ∧ (s.modImg f).readers = s.readers ∧
    (s.modImg f).regions = s.regions ∧ (s.modImg f).partPort = s.partPort ∧ (s.modImg f).enginePart = s.enginePart ∧
    (s.modImg f).hbm = s.hbm ∧ (s.modImg f).hbmPast = s.hbmPast :=
  ⟨rfl, rfl, rfl, rfl, rfl, rfl, rfl, rfl, rfl, rfl, rfl, rfl, rfl, rfl, rfl, rfl, rfl, rfl, rfl, rfl, rfl, rfl, rfl, rfl, rfl, rfl, rfl, rfl⟩

@[simp] theorem State.modImg_img (f : Img → Img) (s : State) : (s.modImg f).img = f s.img := rfl

/-- A change of spim leaves every other field. -/
@[simp] theorem State.modSpim_fields (f : Spim → Spim) (s : State) :
    (s.modSpim f).pending = s.pending ∧ (s.modSpim f).freeCtr = s.freeCtr ∧ (s.modSpim f).clk = s.clk ∧
    (s.modSpim f).time = s.time ∧ (s.modSpim f).guy = s.guy ∧ (s.modSpim f).pwr = s.pwr ∧ (s.modSpim f).top = s.top ∧
    (s.modSpim f).flt = s.flt ∧ (s.modSpim f).sec = s.sec ∧ (s.modSpim f).img = s.img ∧ (s.modSpim f).met = s.met ∧
    (s.modSpim f).trigx = s.trigx ∧ (s.modSpim f).benches = s.benches ∧ (s.modSpim f).gangs = s.gangs ∧
    (s.modSpim f).sites = s.sites ∧ (s.modSpim f).raes = s.raes ∧ (s.modSpim f).acqs = s.acqs ∧
    (s.modSpim f).mons = s.mons ∧ (s.modSpim f).monErr = s.monErr ∧ (s.modSpim f).monErrCode = s.monErrCode ∧
    (s.modSpim f).monErrAddr = s.monErrAddr ∧ (s.modSpim f).ports = s.ports ∧ (s.modSpim f).readers = s.readers ∧
    (s.modSpim f).regions = s.regions ∧ (s.modSpim f).partPort = s.partPort ∧
    (s.modSpim f).enginePart = s.enginePart ∧ (s.modSpim f).hbm = s.hbm ∧ (s.modSpim f).hbmPast = s.hbmPast :=
  ⟨rfl, rfl, rfl, rfl, rfl, rfl, rfl, rfl, rfl, rfl, rfl, rfl, rfl, rfl, rfl, rfl, rfl, rfl, rfl, rfl, rfl, rfl, rfl, rfl, rfl, rfl, rfl, rfl⟩

@[simp] theorem State.modSpim_spim (f : Spim → Spim) (s : State) : (s.modSpim f).spim = f s.spim := rfl

/-- A change of met leaves every other field. -/
@[simp] theorem State.modMet_fields (f : Met → Met) (s : State) :
    (s.modMet f).pending = s.pending ∧ (s.modMet f).freeCtr = s.freeCtr ∧ (s.modMet f).clk = s.clk ∧
    (s.modMet f).time = s.time ∧ (s.modMet f).guy = s.guy ∧ (s.modMet f).pwr = s.pwr ∧ (s.modMet f).top = s.top ∧
    (s.modMet f).flt = s.flt ∧ (s.modMet f).sec = s.sec ∧ (s.modMet f).img = s.img ∧ (s.modMet f).spim = s.spim ∧
    (s.modMet f).trigx = s.trigx ∧ (s.modMet f).benches = s.benches ∧ (s.modMet f).gangs = s.gangs ∧
    (s.modMet f).sites = s.sites ∧ (s.modMet f).raes = s.raes ∧ (s.modMet f).acqs = s.acqs ∧
    (s.modMet f).mons = s.mons ∧ (s.modMet f).monErr = s.monErr ∧ (s.modMet f).monErrCode = s.monErrCode ∧
    (s.modMet f).monErrAddr = s.monErrAddr ∧ (s.modMet f).ports = s.ports ∧ (s.modMet f).readers = s.readers ∧
    (s.modMet f).regions = s.regions ∧ (s.modMet f).partPort = s.partPort ∧ (s.modMet f).enginePart = s.enginePart ∧
    (s.modMet f).hbm = s.hbm ∧ (s.modMet f).hbmPast = s.hbmPast :=
  ⟨rfl, rfl, rfl, rfl, rfl, rfl, rfl, rfl, rfl, rfl, rfl, rfl, rfl, rfl, rfl, rfl, rfl, rfl, rfl, rfl, rfl, rfl, rfl, rfl, rfl, rfl, rfl, rfl⟩

@[simp] theorem State.modMet_met (f : Met → Met) (s : State) : (s.modMet f).met = f s.met := rfl

/-- A change of trigx leaves every other field. -/
@[simp] theorem State.modTrigx_fields (f : Trigx → Trigx) (s : State) :
    (s.modTrigx f).pending = s.pending ∧ (s.modTrigx f).freeCtr = s.freeCtr ∧ (s.modTrigx f).clk = s.clk ∧
    (s.modTrigx f).time = s.time ∧ (s.modTrigx f).guy = s.guy ∧ (s.modTrigx f).pwr = s.pwr ∧
    (s.modTrigx f).top = s.top ∧ (s.modTrigx f).flt = s.flt ∧ (s.modTrigx f).sec = s.sec ∧
    (s.modTrigx f).img = s.img ∧ (s.modTrigx f).spim = s.spim ∧ (s.modTrigx f).met = s.met ∧
    (s.modTrigx f).benches = s.benches ∧ (s.modTrigx f).gangs = s.gangs ∧ (s.modTrigx f).sites = s.sites ∧
    (s.modTrigx f).raes = s.raes ∧ (s.modTrigx f).acqs = s.acqs ∧ (s.modTrigx f).mons = s.mons ∧
    (s.modTrigx f).monErr = s.monErr ∧ (s.modTrigx f).monErrCode = s.monErrCode ∧
    (s.modTrigx f).monErrAddr = s.monErrAddr ∧ (s.modTrigx f).ports = s.ports ∧ (s.modTrigx f).readers = s.readers ∧
    (s.modTrigx f).regions = s.regions ∧ (s.modTrigx f).partPort = s.partPort ∧
    (s.modTrigx f).enginePart = s.enginePart ∧ (s.modTrigx f).hbm = s.hbm ∧ (s.modTrigx f).hbmPast = s.hbmPast :=
  ⟨rfl, rfl, rfl, rfl, rfl, rfl, rfl, rfl, rfl, rfl, rfl, rfl, rfl, rfl, rfl, rfl, rfl, rfl, rfl, rfl, rfl, rfl, rfl, rfl, rfl, rfl, rfl, rfl⟩

@[simp] theorem State.modTrigx_trigx (f : Trigx → Trigx) (s : State) : (s.modTrigx f).trigx = f s.trigx := rfl

/-- A free value taken leaves every field but the index of the next. -/
@[simp] theorem State.free_fields (s : State) :
    s.free.2.pending = s.pending ∧ s.free.2.clk = s.clk ∧ s.free.2.time = s.time ∧ s.free.2.guy = s.guy ∧
    s.free.2.pwr = s.pwr ∧ s.free.2.top = s.top ∧ s.free.2.flt = s.flt ∧ s.free.2.sec = s.sec ∧ s.free.2.img = s.img ∧
    s.free.2.spim = s.spim ∧ s.free.2.met = s.met ∧ s.free.2.trigx = s.trigx ∧ s.free.2.benches = s.benches ∧
    s.free.2.gangs = s.gangs ∧ s.free.2.sites = s.sites ∧ s.free.2.raes = s.raes ∧ s.free.2.acqs = s.acqs ∧
    s.free.2.mons = s.mons ∧ s.free.2.monErr = s.monErr ∧ s.free.2.monErrCode = s.monErrCode ∧
    s.free.2.monErrAddr = s.monErrAddr ∧ s.free.2.ports = s.ports ∧ s.free.2.readers = s.readers ∧
    s.free.2.regions = s.regions ∧ s.free.2.partPort = s.partPort ∧ s.free.2.enginePart = s.enginePart ∧
    s.free.2.hbm = s.hbm ∧ s.free.2.hbmPast = s.hbmPast :=
  ⟨rfl, rfl, rfl, rfl, rfl, rfl, rfl, rfl, rfl, rfl, rfl, rfl, rfl, rfl, rfl, rfl, rfl, rfl, rfl, rfl, rfl, rfl, rfl, rfl, rfl, rfl, rfl, rfl⟩

/-- A write of HBM leaves every other field. -/
@[simp] theorem State.hbmWrite_fields (a : Nat) (bs : List Byte) (s : State) :
    (s.hbmWrite a bs).pending = s.pending ∧ (s.hbmWrite a bs).freeCtr = s.freeCtr ∧ (s.hbmWrite a bs).clk = s.clk ∧
    (s.hbmWrite a bs).time = s.time ∧ (s.hbmWrite a bs).guy = s.guy ∧ (s.hbmWrite a bs).pwr = s.pwr ∧
    (s.hbmWrite a bs).top = s.top ∧ (s.hbmWrite a bs).flt = s.flt ∧ (s.hbmWrite a bs).sec = s.sec ∧
    (s.hbmWrite a bs).img = s.img ∧ (s.hbmWrite a bs).spim = s.spim ∧ (s.hbmWrite a bs).met = s.met ∧
    (s.hbmWrite a bs).trigx = s.trigx ∧ (s.hbmWrite a bs).benches = s.benches ∧ (s.hbmWrite a bs).gangs = s.gangs ∧
    (s.hbmWrite a bs).sites = s.sites ∧ (s.hbmWrite a bs).raes = s.raes ∧ (s.hbmWrite a bs).acqs = s.acqs ∧
    (s.hbmWrite a bs).mons = s.mons ∧ (s.hbmWrite a bs).monErr = s.monErr ∧
    (s.hbmWrite a bs).monErrCode = s.monErrCode ∧ (s.hbmWrite a bs).monErrAddr = s.monErrAddr ∧
    (s.hbmWrite a bs).ports = s.ports ∧ (s.hbmWrite a bs).readers = s.readers ∧
    (s.hbmWrite a bs).regions = s.regions ∧ (s.hbmWrite a bs).partPort = s.partPort ∧
    (s.hbmWrite a bs).enginePart = s.enginePart ∧ (s.hbmWrite a bs).hbmPast = s.hbmPast :=
  ⟨rfl, rfl, rfl, rfl, rfl, rfl, rfl, rfl, rfl, rfl, rfl, rfl, rfl, rfl, rfl, rfl, rfl, rfl, rfl, rfl, rfl, rfl, rfl, rfl, rfl, rfl, rfl, rfl⟩

/-- A byte outside the bytes written reads as before. -/
theorem State.hbmAt_hbmWrite_other (bs : List Byte) (s : State) {a b : Nat} (h : b < a ∨ a + bs.length ≤ b) :
    (s.hbmWrite a bs).hbmAt b = s.hbmAt b := by
  unfold State.hbmAt State.hbmWrite
  rw [memGet_memPutList_other _ _ (by simpa using h)]
  rfl

/-- A byte written reads as written, under the key in force. -/
theorem State.hbmAt_hbmWrite_same (bs : List Byte) (s : State) (a i : Nat) (h : Memory.wf s.hbm = true) (k : i < bs.length) :
    (s.hbmWrite a bs).hbmAt (a + i) = bs[i] := by
  unfold State.hbmAt State.hbmWrite
  rw [memGet_memPutList_same _ _ _ _ h (by simpa using k)]
  simp [State.keyNow, BitVec.xor_assoc]

end Sys2Proof.Machine
end

