-- ==== Sys2Proof/Machine/Package.lean ====
section
/-! DEFINITION. The ball map (R407 to R409): rows and columns 1 to 68 of the array, its regions, and the balls of the channels, the monitors and the channel dies' supplies. -/

namespace Sys2Proof.Machine

/-- The letters of the rows, in order (R407). -/
def rowLetters : List String :=
  ["A", "B", "C", "D", "E", "F", "G", "H", "J", "K", "L", "M", "N", "P", "T", "U", "V", "W", "Y"]

/-- The name of row r, 1 to 68: one letter, then A, B or C and a second letter (R407). -/
def rowName (r : Nat) : String :=
  let l (i : Nat) : String := rowLetters.getD i ""
  if r ≤ 19 then l (r - 1) else l ((r - 20) / 19) ++ l ((r - 20) % 19)

/-- The name of the ball at a row and column. -/
def ballName (b : Nat × Nat) : String := rowName b.1 ++ toString b.2

/-- The regions of the array (R408). -/
inductive BallRegion where
  | ring | band | core
  deriving DecidableEq, Repr

/-- The region of the ball at a row and column (R408). -/
def ballRegion (b : Nat × Nat) : BallRegion :=
  let edge := min (min b.1 (69 - b.1)) (min b.2 (69 - b.2))
  if edge ≤ 8 then .ring else if edge ≤ 12 then .band else .core

/-- Row and column of the ball at depth k and position j of the strip of die d (R408). -/
def dieBall (d k j : Nat) : Nat × Nat :=
  match d with
  | 0 => (k, j)
  | 1 => (k, j + 30)
  | 2 => (j, 69 - k)
  | 3 => (j + 30, 69 - k)
  | 4 => (69 - k, 69 - j)
  | 5 => (69 - k, 39 - j)
  | 6 => (69 - j, k)
  | _ => (39 - j, k)

/-- The ball of DUT channel c (R409). -/
def channelBall (c : Nat) : Nat × Nat := dieBall (c / 64) (2 + 2 * (c % 64 / 22)) (4 + c % 64 % 22)

/-- The ball of MON[m] (R409). -/
def monBall (m : Nat) : Nat × Nat := dieBall (m / 8) 8 (4 + m % 8)

/-- What the ball at depth k and position j of a die's strip is assigned to (R409). -/
inductive StripUse where
  | channel (i : Nat) | mon (n : Nat) | monGnd | pos | neg | hv | core | gnd
  deriving DecidableEq, Repr

/-- The assignment of a die's strip (R409). -/
def stripUse (k j : Nat) : StripUse :=
  let i := (k / 2 - 1) * 22 + (j - 4)
  if k % 2 = 1 then .gnd
  else if k = 8 then
    (if 4 ≤ j ∧ j ≤ 11 then .mon (j - 4) else if j = 12 ∨ j = 13 then .monGnd else if 14 ≤ j ∧ j ≤ 29 then .core else .gnd)
  else if 4 ≤ j ∧ j ≤ 25 ∧ i < 64 then .channel i
  else if k = 2 then .pos
  else if k = 4 then .neg
  else if 27 ≤ j then .hv
  else .gnd

end Sys2Proof.Machine
end

