-- ==== Sys2Proof/WellFormed.lean ====
section
/-! DEFINITION. The well-formed commands: operands that the row's event can have. The machine gives every command a meaning, well-formed or not (log 2). -/

namespace Sys2Proof

open Machine (bit fld f32Finite)

/-- A bit that names the row's command is set in the word written. -/
def hasBit (v : Word) (i : Nat) : Bool := bit v i

/-- A serial frame of the management port holds 1 to 32 words (R282). -/
def frameWords (n : Nat) : Bool := decide (1 ≤ n) && decide (n ≤ 32)

/-- A command byte and address of the kinds that BADCMD covers (R285): an undefined OP, an address that is not aligned, or a
STATUS frame with ADDR or CNT. -/
def badCommand (cmd : Byte) (addr : BitVec 24) : Bool :=
  let op := cmd.toNat / 32
  op == 0 || decide (6 ≤ op) || addr.toNat % 4 != 0 || (op == 5 && (addr != 0 || cmd.toNat % 32 != 0))

/-- Values at a pin are finite. -/
def finite (vs : List Word) : Bool := vs.all f32Finite

/-- A well-formed command. -/
def Instr.wellFormed : Instr → Bool
  | .registerWrite w _ _ full => full || w != .mspi
  | .counterSnapshotRead _ a => a.toNat % 4 == 0
  | .storeWindowRead _ a => a.toNat % 4 == 0 && decide (0x400000 ≤ a.toNat)
  | .resultReturn _ xs => xs.all fun x => finite x.volts
  | .seqStop _ _ v => hasBit v 0
  | .doorbell _ _ v => hasBit v 2
  | .adcResult _ cs => !cs.isEmpty
  | .strmRewind _ _ v => hasBit v 1
  | .strmEos _ _ v => hasBit v 0
  | .analyse _ _ v => hasBit v 0
  | .raeClear _ _ v => hasBit v 1
  | .acqArm _ _ v => hasBit v 0
  | .acqStop _ _ v => hasBit v 1
  | .refCheck d => f32Finite d
  | .readbackDone cs => !cs.isEmpty
  | .readbackStart _ _ v => hasBit v 0
  | .metRead _ n => decide (1 ≤ n)
  | .metWrite _ ws _ => !ws.isEmpty
  | .closeSession _ ws _ => ws.length == 3
  | .measureFrame _ ws cs _ => ws.length == 2 && !cs.isEmpty
  | .mirrorLoad ws => ws.all fun w => decide (w.1 < 0x41080)
  | .monEnable _ _ v => hasBit v 31
  | .monSettle _ v => f32Finite v
  | .monTrip _ v => f32Finite v
  | .monReturnToNormal _ v => f32Finite v
  | .monRampStart _ _ v => hasBit v 31
  | .imgLoad _ v => fld v 0 4 == 1
  | .imgCheck _ v => fld v 0 4 == 2
  | .imgCommit _ v => fld v 0 4 == 4
  | .imgDiscard _ v => fld v 0 4 == 8
  | .stgPush _ _ v => hasBit v 0
  | .stagingClear _ _ v => hasBit v 1
  | .descriptorFetch _ ws => ws.length == 16
  | .queueEnable _ _ v => hasBit v 0
  | .queueDisable _ _ v => !hasBit v 0
  | .apertureRead _ _ n => decide (1 ≤ n)
  | .apertureWrite _ _ bs => !bs.isEmpty
  | .linkUp _ w v => [1, 2, 4, 8, 16].contains w.toNat && decide (1 ≤ v.toNat) && decide (v.toNat ≤ 5)
  | .mspiWrite a ws _ => frameWords ws.length && a.toNat % 4 == 0
  | .mspiWriteInc a ws _ => frameWords ws.length && a.toNat % 4 == 0
  | .mspiRead a _ _ => a.toNat % 4 == 0
  | .mspiReadInc a _ _ => a.toNat % 4 == 0
  | .mspiStatusFrame a n _ => a == 0 && n == 0
  | .mspiUndefinedOp c a _ _ => badCommand c a
  | .metUndefinedCommand c _ _ _ => !([1, 2, 3, 4, 5, 6, 0xF].contains c.toNat)
  | .spimSend _ v => decide (v.toNat < 64)
  | .stepArm _ v => hasBit v 31
  | .clkoutEnable _ _ v => hasBit v 31
  | .clkoutDisable _ _ v => !hasBit v 31
  | .maxClr _ v => hasBit v 31
  | .benchWake _ _ v => hasBit v 0
  | .benchGate _ _ v => hasBit v 1
  | .thermalUpdate ps => ps.length == 16 && finite ps
  | .cwScan ks => ks.length == 512 && ks.all fun k => k.length == 64
  | .clrFirst _ v => hasBit v 31
  | .ftRecover _ v => hasBit v 30
  | .recClr _ v => hasBit v 29
  | .siteRecover _ v => hasBit v 28
  | .warmWrite _ v => hasBit v 0
  | .partitionReset _ v => fld v 0 4 != 0
  | .trigxSwtrig _ v => hasBit v 0
  | .keyProgram _ v => hasBit v 31
  | .keyRevoke _ v => hasBit v 30
  | .timeSnapshotRead _ | .epoch | .syncEdge | .gangStart _ | .next _ | .repeatBeat _ | .loopBegin _ | .loopEnd _
  | .jump _ | .jumpIf _ | .horizonStallEnd _ | .call _ | .returnOp _ | .waitTrig _ | .waitTrigRelease _
  | .waitTrigTimeout _ | .waitBeats _ | .halt _ | .drainComplete _ | .segOpen _ | .gangSync _ | .gangSyncRelease _
  | .pspiSend _ | .apgLoad _ | .eventOp _ | .vectorCycleStart _ | .keepaliveBeat _ | .underrunResume _
  | .logEntryWritten _ | .ffRearm _ _ _ | .laneRelease _ _ _ | .benchPeDataWrite _ _ _ | .benchPeDataRead _ _
  | .hvModeSafeEnd _ | .dischargePhaseEnd _ | .clampEnter _ | .benchTmgSlotWrite _ _ _ _ | .benchTmgDataWrite _ _ _
  | .benchTmgDataRead _ _ | .apgClutDataAccess _ _ _ | .apgPreDataAccess _ _ _ | .benchStrmProdLoWrite _ _ _
  | .benchStrmProdHiWrite _ _ _ | .benchStrmLndDataRead _ _ | .raeSolDataRead _ _ | .searchDone _ | .trigInEdge _ _
  | .guyTriggerEdge _ | .trigOutEnd _ | .acqStart _ | .acqFrame _ | .acqHeaderWritten _ | .acqRdLoWrite _ _ _
  | .acqRdHiWrite _ _ _ | .openSession _ _ | .abortSession _ _ | .metReset _ _ | .calEnLow | .vmetLoss
  | .metrologyResetDone | .metAnswerTimeout | .monPeriodEnd _ | .monBlankEnd _ | .monRampStep _ | .loadComplete _
  | .checkComplete | .commitComplete | .applyArm _ _ | .hostSqTailWrite _ _ _ | .quiesceDone _ | .runStart _ _
  | .runStop _ _ | .streamJob _ _ _ | .fetchJob _ _ _ | .measureJob _ _ _ | .calJob _ _ | .calComplete _ _ _
  | .applyJob _ _ | .repairReport _ _ _ | .scheduleJob _ _ | .fenceJob _ _ | .jobComplete _ _ | .portLoss _
  | .mspiFrameAbort | .mspiOverclock | .pspiFrameStart | .pspiFrameEnd _ | .announce _ | .announceTimeout
  | .ptpSync _ _ _ _ _ | .followUp _ _ _ | .delayResp _ _ _ | .offsetAgeHoldover | .ppsEdge | .ppsOut
  | .comparatorFire _ | .guyAgreement | .guyStrobe | .guyStrobeEdge | .guyAgreeTimeout | .guyFault | .refclkLoss
  | .pllLock | .pllUnlock | .dllLock _ | .dllUnlock _ | .pwrTarget _ _ | .powerTransitionDone _ | .wakeTimerFire
  | .faultDetect _ | .railFault _ | .faultSourceDeassert _ | .quietEnd _ | .reinitDone _ | .siteRelease _ | .ftExit
  | .coldReset | .coldStartup | .fuseLoadDone _ | .warmReset | .warmStartup | .boot _ | .inputArm _ _
  | .vaonExcursion _ | .keyProgramDone | .jtagBypass | .jtagIdcode | .jtagSamplePreload _ | .jtagExtest _ | .jtagClamp
  | .jtagHighz | .jtagExtestPulse _ | .jtagExtestTrain _ | .jtagTrst | .rmaUnlock _ _ | .refclkReturn | .metFrameAbort
  | .clampExit _ | .ppsOutEnd | .guyStrobeEnd => true

end Sys2Proof
end

