-- ==== Sys2Proof/Tests/Slice0.lean ====
section
/-! SUPPORT. Tests of the model's own: the well-formedness checks, single commands on small states, and a state that meets the hypotheses of each statement. -/

namespace Sys2Proof.Tests

open Sys2Proof Sys2Proof.Machine

/-! ## Well-formedness: an ill-formed command for each check, refused -/

/-- Bus rows: byte enables on MSPI, aligned counter and window addresses (R9, R282, R391, R394). -/
theorem test_wf_bus :
    (Instr.registerWrite .mspi 0x80 1 false).wellFormed = false ∧ (Instr.counterSnapshotRead .mspi 0x1009).wellFormed = false ∧
    (Instr.storeWindowRead .mspi 0x400001).wellFormed = false ∧ (Instr.storeWindowRead .mspi 0x3FFFFC).wellFormed = false := by
  decide

/-- Values at pins and sensors are finite: NaN and infinity are refused (R6). -/
theorem test_wf_finite :
    (Instr.resultReturn 0 [⟨0, 0, 0, [0x7FC00000]⟩]).wellFormed = false ∧ (Instr.refCheck 0x7F800000).wellFormed = false ∧
    (Instr.monSettle 0 0x7F800000).wellFormed = false ∧
    (Instr.monTrip 0 0x7F800000).wellFormed = false ∧ (Instr.monReturnToNormal 0 0x7F800000).wellFormed = false := by decide

/-- Each write that names a bit of its register has that bit set, or clear (the rows of the opcode table). -/
theorem test_wf_bits :
    (Instr.seqStop .mspi 0 2).wellFormed = false ∧ (Instr.doorbell .mspi 0 1).wellFormed = false ∧
    (Instr.strmRewind .mspi 0 1).wellFormed = false ∧ (Instr.strmEos .mspi 0 2).wellFormed = false ∧
    (Instr.analyse .mspi 0 2).wellFormed = false ∧ (Instr.raeClear .mspi 0 1).wellFormed = false ∧
    (Instr.acqArm .mspi 0 2).wellFormed = false ∧ (Instr.acqStop .mspi 0 1).wellFormed = false ∧
    (Instr.readbackStart .mspi 0 2).wellFormed = false ∧ (Instr.stgPush .mspi 0 2).wellFormed = false ∧
    (Instr.stagingClear .mspi 0 1).wellFormed = false ∧ (Instr.queueEnable .mspi 0 0).wellFormed = false ∧
    (Instr.queueDisable .mspi 0 1).wellFormed = false ∧ (Instr.benchWake .mspi 0 2).wellFormed = false ∧
    (Instr.benchGate .mspi 0 1).wellFormed = false ∧ (Instr.warmWrite .mspi 2).wellFormed = false ∧
    (Instr.trigxSwtrig .mspi 2).wellFormed = false := by decide

/-- The same of the writes that name a high bit. -/
theorem test_wf_high_bits :
    (Instr.monEnable .mspi 0 1).wellFormed = false ∧ (Instr.monRampStart .mspi 0 1).wellFormed = false ∧
    (Instr.stepArm .mspi 1).wellFormed = false ∧ (Instr.clkoutEnable .mspi 0 1).wellFormed = false ∧
    (Instr.clkoutDisable .mspi 0 0x80000000).wellFormed = false ∧ (Instr.maxClr .mspi 1).wellFormed = false ∧
    (Instr.clrFirst .mspi 1).wellFormed = false ∧ (Instr.ftRecover .mspi 1).wellFormed = false ∧
    (Instr.recClr .mspi 1).wellFormed = false ∧ (Instr.siteRecover .mspi 1).wellFormed = false ∧
    (Instr.keyProgram .mspi 1).wellFormed = false ∧ (Instr.keyRevoke .mspi 1).wellFormed = false ∧
    (Instr.partitionReset .mspi 0x10).wellFormed = false := by decide

/-- Command codes of IMG_CTRL and frame numbers of SPIM_SEND (R245, R291). -/
theorem test_wf_codes :
    (Instr.imgLoad .mspi 2).wellFormed = false ∧ (Instr.imgCheck .mspi 1).wellFormed = false ∧
    (Instr.imgCommit .mspi 3).wellFormed = false ∧ (Instr.imgDiscard .mspi 4).wellFormed = false ∧
    (Instr.spimSend .mspi 64).wellFormed = false := by decide

/-- Lengths of frames, descriptors, transfers and result lists (R53, R222, R266, R268, R282, R336, R370). -/
theorem test_wf_lengths :
    (Instr.adcResult 0 []).wellFormed = false ∧ (Instr.readbackDone []).wellFormed = false ∧
    (Instr.measureFrame 0 [0, 0] [] 0).wellFormed = false ∧ (Instr.metRead 0 0).wellFormed = false ∧
    (Instr.metWrite 0 [] 0).wellFormed = false ∧ (Instr.closeSession 0 [0, 0] 0).wellFormed = false ∧
    (Instr.measureFrame 0 [0] [0] 0).wellFormed = false ∧ (Instr.descriptorFetch 0 [0]).wellFormed = false ∧
    (Instr.apertureRead 0 0 0).wellFormed = false ∧ (Instr.apertureWrite 0 0 []).wellFormed = false ∧
    (Instr.mspiWrite 0 [] 0).wellFormed = false ∧ (Instr.mspiWriteInc 0 [] 0).wellFormed = false ∧
    (Instr.thermalUpdate [0]).wellFormed = false ∧ (Instr.cwScan [[0]]).wellFormed = false ∧
    (Instr.mirrorLoad [(0x41080, 0)]).wellFormed = false := by decide

/-- Addresses, command bytes, link widths and speeds (R222, R263, R282, R285). -/
theorem test_wf_frames :
    (Instr.mspiWrite 2 [0] 0).wellFormed = false ∧ (Instr.mspiWriteInc 2 [0] 0).wellFormed = false ∧
    (Instr.mspiRead 1 0 ⟨0, none⟩).wellFormed = false ∧ (Instr.mspiReadInc 3 0 ⟨0, none⟩).wellFormed = false ∧
    (Instr.mspiStatusFrame 4 0 ⟨0, none⟩).wellFormed = false ∧ (Instr.mspiStatusFrame 0 1 ⟨0, none⟩).wellFormed = false ∧
    (Instr.mspiUndefinedOp 0x20 0 [] 0).wellFormed = false ∧ (Instr.metUndefinedCommand 1 0 [] 0).wellFormed = false ∧
    (Instr.linkUp 0 3 1).wellFormed = false ∧ (Instr.linkUp 0 4 6).wellFormed = false ∧
    (Instr.linkUp 0 4 0).wellFormed = false := by decide

/-- A well-formed command of every check above, accepted. -/
theorem test_wf_accepts :
    (Instr.registerWrite (.port 0) 0x80 1 false).wellFormed = true ∧ (Instr.counterSnapshotRead .mspi 0x3030).wellFormed = true ∧
    (Instr.imgCommit .mspi 4).wellFormed = true ∧ (Instr.linkUp 0 4 5).wellFormed = true ∧
    (Instr.mspiStatusFrame 0 0 ⟨0, none⟩).wellFormed = true ∧ (Instr.mspiUndefinedOp 0xC0 0 [] 0).wellFormed = true := by decide

/-! ## Small states -/

/-- A powered device in RUN with the main PLL locked. -/
def up : State :=
  { State.reset with
    pwr := { State.reset.pwr with pstate := .run, dieUp := true }
    clk := { State.reset.clk with pllLock := true, devTick := 1000, epoch := 2, phase := 100 }
    top := { State.reset.top with phase := .up, wasReady := true } }

/-- A microword of an opcode, nano-word 1 and an operand (R93). -/
def mw (op arg : Nat) : BitVec 48 := BitVec.ofNat 48 (op * 2 ^ 42 + 2 ^ 28 + arg * 2 ^ 8)

/-- One gang of bench 0, with a microword at address 3. -/
def gang0 (w : BitVec 48) (x : Bench) : State :=
  { up with
    benches := [(0, { x with micro := [(3, w)], nano := x.nano, awake := true })]
    gangs := [(0, { cfg := { benches := [0], bw := 1, partition := 0 } })] }

/-- A bench whose sequencer would issue the microword at address 3 next. -/
def issuing : Bench := { seq := { state := .issue, next := 3, lact := 2, lcnt := [(1, 5)], lstart := [(1, 2)] } }

/-- What each opcode's command finds due. -/
def dueState (op arg : Nat) (x : Bench) : Bool := Claims.due (gang0 (mw op arg) x) 0 3 (mw op arg) && muOp (mw op arg) == op

/-- StraightMicrowordsIssue: NEXT, REPEAT, WAIT_BEATS, HALT, PSPI_SEND, APG_LOAD and EVENT can be due. -/
theorem test_due_straight :
    dueState 0 0 issuing = true ∧ dueState 1 0xFFFFF issuing = true ∧ dueState 9 0 issuing = true ∧
    dueState 0xA 0 issuing = true ∧ dueState 0xD 0x7F issuing = true ∧ dueState 0xE 0xF0000 issuing = true ∧
    dueState 0xF 0xFFFFF issuing = true := by decide

/-- SEG_OPEN of a landing that the bench's live stream defines. -/
def streaming : Bench := { issuing with strm := { cfg := { fmt := 1, landings := [(63, { pos := 64, len := 4096 })] } } }

theorem test_due_seg_open : dueState 0xB 63 streaming = true ∧ streaming.strm.live = true := by decide

/-- BranchingMicrowordsIssue: the loops, jumps, CALL and RETURN can be due. -/
theorem test_due_branching :
    dueState 2 0x20001 issuing = true ∧ dueState 3 0x20000 issuing = true ∧ dueState 4 0xFFFF issuing = true ∧
    dueState 5 0x60010 issuing = true ∧ dueState 6 7 issuing = true ∧
    dueState 7 0 { issuing with seq := { issuing.seq with stack := [{ ret := 9, handler := true, rem := 2 }] } } = true := by
  decide

theorem test_jump_if_horizon :
    nwFlagClr ((gang0 (mw 5 0x60010) issuing).nanoAt 0 (muNano (mw 5 0x60010))) = false ∧
    (gang0 (mw 5 0x60010) issuing).horizonOk 0 = true := by decide

/-- WaitingMicrowordsBegin and IssuedBeatFrame: WAIT_TRIG and GANG_SYNC can be due. -/
theorem test_due_waiting : dueState 8 12 issuing = true ∧ dueState 0xC 0 issuing = true := by decide

/-- WaitsEnd: a wait that a pulse has reached, one whose timeout has run out, one for an epoch. -/
def waiting (q : Seq) : State := gang0 (mw 8 4) { seq := q }

theorem test_waits :
    Claims.gangOk (waiting {}) 0 = true ∧
    (let s := waiting { state := .wait, next := 3, waited := 4, timeout := 4 }
     let q := (s.bench (s.lead 0)).seq
     q.state = .wait ∧ q.timeout ≠ 0 ∧ q.timeout ≤ q.waited ∧ q.wtPulses = []) ∧
    (let s := waiting { state := .wait, next := 3, wtPulses := [(1000, 191), (1000, 2)] }
     let q := (s.bench (s.lead 0)).seq
     q.state = .wait ∧ q.wtPulses = [(1000, 191), (1000, 2)] ∧ 1000 ≤ s.now ∧ q.timeout = 0) ∧
    (let s := waiting { state := .sync, next := 3, syncEpoch := 3 }
     let q := (s.bench (s.lead 0)).seq
     q.state = .sync ∧ s.clk.pllLock = true ∧ s.trigx.inflight = [] ∧ s.grid ≤ 256 * q.syncEpoch) := by decide

/-- StartsAndStallsIssue: an ARMED gang, and one stalled at the horizon with its results in. -/
def armedGang : State :=
  let s := gang0 (mw 0 0) { seq := { state := .armed, entry := 3 } }
  { s with gangs := [(0, { (s.gang 0) with startEpoch := 3 })] }

theorem test_gang_start :
    Claims.gangOk armedGang 0 = true ∧ armedGang.clk.pllLock = true ∧ armedGang.img.applies = [] ∧
    Claims.allBenches armedGang 0 (fun x => x.seq.state == .armed && x.seq.beat == 0 && x.fifo.isEmpty &&
      x.strm.cfg.fmt == 0) = true ∧ (armedGang.gang 0).lastIssue = none ∧ armedGang.trigx.inflight = [] ∧
    armedGang.grid ≤ 256 * (armedGang.gang 0).startEpoch ∧ Claims.holdsWord armedGang 0 3 (mw 0 0) = true ∧
    armedGang.wordCode 0 3 = 0 ∧ 0 < (armedGang.gang 0).cfg.bw := by decide

def stalledGang : State :=
  let s := gang0 (mw 5 9) { seq := { state := .hstall, next := 3, beat := 60 } }
  { s with gangs := [(0, { (s.gang 0) with returned := 20 })] }

theorem test_stall_end :
    Claims.gangOk stalledGang 0 = true ∧ Claims.allBenches stalledGang 0 (fun x => x.seq.state == .hstall &&
      x.seq.next == 3 && x.seq.resume == 0) = true ∧ stalledGang.fifoFull 0 = false ∧ stalledGang.horizonOk 0 = true ∧
    stalledGang.issueTick 0 = stalledGang.now ∧ Claims.holdsWord stalledGang 0 3 (mw 5 9) = true ∧
    muOp (mw 5 9) = 5 ∧ nwFlagClr (stalledGang.nanoAt 0 (muNano (mw 5 9))) = false := by decide

/-- RunsStopAndDrain: the writes reach BENCH_SEQ_CTRL over MSPI; a running gang, and one that has drained. -/
theorem test_stop_drain :
    up.takesWrite .mspi (benchAt (0 : BenchIx) 0x010) = true ∧
    (let s := gang0 (mw 0 0) issuing
     s.takesWrite .mspi (benchAt (0 : BenchIx) 0x010) = true ∧ s.gangOf 0 = some 0 ∧ s.gangState 0 = .issue ∧
     s.fifoFull 0 = false ∧ Claims.allBenches s 0 (fun x => x.seq.state != .gated) = true) ∧
    (let s := gang0 (mw 0 0) { seq := { state := .drain } }
     Claims.gangOk s 0 = true ∧
     Claims.allBenches s 0 (fun x => x.seq.state == .drain && x.fifo.isEmpty && x.flight.isEmpty) = true) := by decide

/-- BeatsReachPinsAndReturn: a queued beat 0 with every event, and a beat in flight. -/
def queuedBeat : Beat :=
  { mark := some 255, period := true, pspi := some 63, event := some 5, vecs := [{ start := 4999999, period := 5000 }] }

theorem test_pins_return :
    (let s := gang0 (mw 0 0) { issuing with fifo := [queuedBeat] }
     Claims.gangOk s 0 = true ∧ (s.bench (s.lead 0)).fifo = [queuedBeat] ∧
     s.clk.pllLock = true ∧ s.trigx.inflight = [] ∧ Claims.allBenches s 0 (fun y => !y.fifo.isEmpty) = true) ∧
    (let s := gang0 (mw 0 0) { issuing with flight := [{ beat := queuedBeat }] }
     Claims.gangOk s 0 = true ∧ (s.bench (s.lead 0)).flight = [{ beat := queuedBeat }]) := by decide

/-- What such a beat acts on: a unit that waits for beat 0, a monitor of its site with a pattern period and a ramp that follows bench 0, a frame
queue with room and a full one. -/
def eventState (n : Nat) : State :=
  { gang0 (mw 0 0) { issuing with fifo := [queuedBeat] } with
    acqs := [(0, { mode := 0x40, state := .waitStart })]
    mons := [(63, { cfg := 0x80400000, assign := { site := some 7, rampBench := 0 } })]
    sites := [(7, { cfg := { benches := [0] } })]
    trigx := { routes := [(167, [8])] }
    spim := { up.spim with queue := List.replicate n { frame := 1, src := 1, tick := 0, rank := 0 } } }

theorem test_beat_events :
    (let s := eventState 0
     (s.acq 0).state = .waitStart ∧ (s.acq 0).startSrc = 1 ∧ (s.acq 0).startAt = none ∧ s.spim.full = false ∧
     (167, [8]) ∈ s.trigx.routes ∧ (tfind s.mons 63).isSome = true ∧ (s.mon 63).en = true ∧ (s.mon 63).pattern = true ∧
     (s.mon 63).assign.site = some 7 ∧ (s.site 7).cfg.gang = 0 ∧ (s.mon 63).assign.rampBench ∈ s.gangBenches 0) ∧
    (eventState 8).spim.full = true := by decide

/-- LogEntriesReachHbm: a beat in flight whose one vector compares lane 0 with 0 V below VCH, in a site with a log, a bitmap and an engine. -/
def failBeat : Flight :=
  { beat := { num := 9, captEn := true, vecs := [{ lanes := [{ act := .cmp true, apgMap := 0x700 }] }] } }
def pinsSeen : List PinSample := (List.finRange 8).map fun l => ⟨0, l, 0, [0]⟩

def failing (merge : Bool) (e : List (Nat × LogEntry)) : State :=
  { gang0 (mw 0 0) { issuing with flight := [failBeat], openEntry := e } with
    sites := [(0, { cfg := { benches := [0] }, fail := { merge := merge, hasBm := true, logSize := 4 } })]
    raes := [(63, { cfg := { assigned := true }, state := .intake })] }

theorem test_return_given :
    (let s := failing false []
     Claims.gangOk s 0 = true ∧ (s.bench (s.lead 0)).flight = [failBeat] ∧ (s.raes.map (·.1)).Pairwise (· < ·) ∧
     ∀ l < 8, (seenVolts failBeat { lanes := [{ act := .cmp true, apgMap := 0x700 }] } 0 pinsSeen l).isSome = true) := by
  decide

/-- What that vector gives its site: one part, a failing lane 0 that is a DATA lane, a bitmap bit and a log entry, and a point. -/
theorem test_return_parts :
    (let s := failing false []
     let ps := Claims.captured (Claims.parts s 0 pinsSeen) 0
     ps.length = 1 ∧ ps.map (·.ios s) = [[0]] ∧ (Claims.writes s ps 0).length = 2 ∧ 0 ∈ s.sitesOfGang 0 ∧
     (s.site 0).closing = [] ∧ (s.site 0).logFull = false ∧ (s.site 0).fail.sample = false ∧
     (s.site 0).queue.length + 2 ≤ 512 ∧ (s.rae 63).cfg.assigned = true ∧ (s.rae 63).state = .intake) := by decide

/-- With MERGE: an open entry that the vector joins, and one at other coordinates. -/
theorem test_return_merge :
    (let s := failing true [(0, {})]
     let ps := Claims.captured (Claims.parts s 0 pinsSeen) 0
     (s.site 0).fail.merge = true ∧ ps.map (fun x => Claims.joins {} (x.entry s)) = [true] ∧
     ps.map (fun x => Claims.joins { snap := { px := 1 } } (x.entry s)) = [false]) := by decide

/-- A site whose log has room for one more entry, and one with a bitmap update to write. -/
theorem test_log_entry :
    (let s : State := { up with sites := [(127, { queue := [.log {}], fail := { logSize := 4 }, logWr := 3 })] }
     (s.site 127).queue = [.log {}] ∧ (s.site 127).logWr < (s.site 127).fail.logSize ∧ Memory.wf s.hbm = true) ∧
    (let s : State := { up with sites := [(127, { queue := [.bitmap [9, 4095]] })] }
     (s.site 127).queue = [.bitmap [9, 4095]]) ∧
    up.takesWrite .mspi (benchAt (63 : BenchIx) 0x204) = true := by decide

/-- UnderRunsHoldTheGang: a NEXT that consumes a record, with the record missing and with it there. -/
def recordDue (state : SeqState) (prod : Nat) : State :=
  gang0 (mw 0 0) { seq := { state := state, next := 3 }, nano := [(1, BitVec.ofNat 256 (2 ^ 220))],
                   strm := { cfg := { fmt := 1, size := 4096 }, prod := prod, short := true } }

theorem test_under_run :
    (let s := recordDue .issue 0
     let x := s.bench 0
     Claims.freeToIssue s 0 = true ∧ s.gangBenches 0 = [0] ∧ s.microAt 0 3 = mw 0 0 ∧ s.wordCode 0 3 = 0 ∧
     x.strm.live = true ∧ needs (s.nanoAt 0 (muNano (mw 0 0))) (s.gang 0).cfg.bw = 1 ∧
     x.strm.availN x.strm.cons s.now 1 = .short ∧ s.abortPolicy 0 = false ∧ x.seq.urBeats.count.toNat + 1 < cntMax) ∧
    (let s := recordDue .keepalive 2
     Claims.freeToIssue s 0 = true ∧ (s.bench 0).strm.availN 0 s.now 1 = .ok) := by decide

/-- ParameterMemoryTakesLegalWords: a legal VIH, an illegal one, a read of APG_MAP of lane 7. -/
def peAt (a : Nat) : State := { up with benches := [(0, { pe := { addr := a }, awake := true })] }

theorem test_pe_window :
    up.takesWrite .mspi (benchAt (0 : BenchIx) 0xC04) = true ∧
    (peAt 0).peCode 0 0 0 0x3F800000 = 0 ∧ (peAt 0).peCode 0 0 0 0x7F800000 = 1 ∧
    Claims.readsNow (peAt 0x1E0) .mspi (benchAt (0 : BenchIx) 0xC04) = true ∧
    ((peAt 0x1E0).chan 0 7).hvChange = none ∧ ((peAt 0x1E0).lane 0 7).get 0x80 = some 0 := by decide

/-- Legal words of CH_CFG at lane 7: one that changes HV_MODE and one that does not. -/
theorem test_pe_ch_cfg :
    (peAt 0x1CE).peCode 0 7 0x38 0x8000 = 0 ∧ (peAt 0x1CE).peCode 0 7 0x38 0 = 0 ∧
    ((((peAt 0x1CE).lane 0 7).set 0x38 (0x8000 &&& laneMask 7 0x38)).hv ≠ ((peAt 0x1CE).lane 0 7).hv) := by decide

/-- LanesLeaveSafeStateOnRelease: a bench that is running, and one that is not with lane 7 in safe state without a cause. -/
theorem test_release :
    up.takesWrite .mspi (benchAt (0 : BenchIx) 0xC18) = true ∧ (gang0 (mw 0 0) issuing).running 0 = true ∧
    (peAt 0).running 0 = false ∧ ((peAt 0).chan 0 7).inSafe = true ∧ (peAt 0).safeCause 0 7 = false := by decide

/-- ChannelEventsTakeEffect: an HV_MODE change, a discharge in PARK, a forcing PPMU. -/
def chan7 (c : Chan) (p : LaneP) : State := { up with benches := [(63, { chans := [(7, c)], lanes := [(7, p)] })] }

theorem test_channel_events :
    ((chan7 { hvChange := some (17000, true, true) } {}).chan 63 7).hvChange = some (17000, true, true) ∧
    (let s := chan7 { inSafe := true, discharge := true } { chCfg := 0x400 }
     (s.chan 63 7).inSafe = true ∧ (s.chan 63 7).discharge = true ∧ (s.lane 63 7).park = true) ∧
    (chan7 { inSafe := true, parkForce := true } {}).forcing (511 / 8) (511 % 8) = true ∧
    up.powered = true ∧ up.met.running = true ∧
    [(0 : BitVec 18), 1].length = ((chan7 {} { adcCfg := 0x10000 }).acting (511 / 8) (511 % 8)).avg := by decide

/-- TimingSubBlockAccesses: library words of an unmapped entry, a refused word, a slot map that is accepted and one refused. -/
def tmgAt (a : Nat) : State := { up with benches := [(0, { tmg := { addr := a } })] }

theorem test_timing_window :
    up.takesWrite .mspi (benchAt (0 : BenchIx) 0x814) = true ∧ up.takesWrite .mspi (benchAt (0 : BenchIx) 0x800) = true ∧
    up.takesWrite .mspi (benchAt (0 : BenchIx) 0x804) = true ∧ (tmgAt 0x1F80).libCode 0 0x7E00 5000 = 0 ∧
    (tmgAt 1).libCode 0 4 0 = 9 ∧ Claims.readsNow (tmgAt 0) .mspi (benchAt (0 : BenchIx) 0x814) = true ∧
    libWord 0 = true := by decide

/-- PatternTablesAreReplicated: the window's last entry, and word 9 of the last preset. -/
theorem test_pattern_tables :
    up.takesWrite .mspi (benchAt (0 : BenchIx) 0x464) = true ∧ up.takesWrite .mspi (benchAt (0 : BenchIx) 0x46C) = true ∧
    Claims.readsNow up .mspi (benchAt (0 : BenchIx) 0x464) = true ∧
    Claims.readsNow up .mspi (benchAt (0 : BenchIx) 0x46C) = true ∧ up.running 0 = false ∧
    (up.bench 0).apg.clutPast = false ∧ (up.bench 0).apg.clutAddr < 0x1000 ∧ (up.bench 0).apg.prePast = false ∧
    (0xF9 : Nat) < 0x100 ∧ 0xF9 % 16 < 10 ∧ (0xFF : Word).toNat < 2 ^ apgWidth.getD 9 32 := by decide

/-- StreamRegistersMoveTheStream: a held low half, a host-fed bench, a landing. -/
def hostStream : State :=
  { up with
    benches := [(0, { strm := { cfg := { fmt := 2, hostFed := true, size := 4096, landings := [(63, { pos := 64 })] },
                                lndAddr := 252 } })]
    readers := [(4, { prodLo := [(0, 64)] })] }

theorem test_stream_registers :
    hostStream.takesWrite .mspi (benchAt (0 : BenchIx) 0xE18) = true ∧
    hostStream.takesWrite .mspi (benchAt (0 : BenchIx) 0xE1C) = true ∧
    hostStream.takesWrite .mspi (benchAt (0 : BenchIx) 0xE04) = true ∧
    tfind (hostStream.reader (whoIx .mspi)).prodLo 0 = some 64 ∧ hostStream.running 0 = false ∧
    (let x := (hostStream.bench 0).strm
     x.cfg.hostFed = true ∧ x.cfg.fmt ≠ 0 ∧ x.prod ≤ 64 ∧ 64 ≤ x.limit ∧ 64 % max 1 x.recSize = 0 ∧
     x.lndAddr < 0x100 ∧ x.lndAddr % 4 = 0 ∧ tfind x.cfg.landings (x.lndAddr / 4) = some { pos := 64 }) ∧
    Claims.readsNow hostStream .mspi (benchAt (0 : BenchIx) 0xE54) = true := by decide

/-- RepairEngineCommands and RepairSolutionsAreSound: writes of RAE_CTRL, a search with one stored fail. -/
theorem test_repair_engine :
    up.takesWrite .mspi (0x20000 + 0x400 * 63 + 0x10) = true ∧ Claims.readsNow up .mspi (0x20000 + 0x400 * 63 + 0x44) = true ∧
    (let s : State := { up with raes := [(63, { state := .search, cfg := { sr := 1, sc := 0, nb := 1 },
                                                regions := [(0, { touched := true, points := [⟨5, 6, 0⟩] })] })] }
     (s.rae 63).state = .search ∧ ((0, ({ touched := true, points := [⟨5, 6, 0⟩] } : RegionRep)) ∈ (s.rae 63).regions)) := by
  decide

/-- TriggerSourcesPulse: an armed low input, an armed guyline input, an active output. -/
theorem test_triggers :
    (let s : State := { up with top := { up.top with inArmed := 0xFFF } }
     s.top.inArmed.getLsbD 3 = true ∧ s.top.trigLevel.getLsbD 3 = !true ∧ s.guyArmed (2 + 3) = true ∧
     s.clk.pllLock = true ∧ (tget {} s.trigx.ins 3 : TrigIn).edgeAt = none) ∧
    (let s : State := { up with top := { up.top with inArmed := 0xFFF, trigLevel := 8 },
                                trigx := { ins := [(3, { edgeAt := some 999, stable := false })] } }
     s.top.trigLevel.getLsbD 3 = !false ∧ (tget {} s.trigx.ins 3 : TrigIn).edgeAt = some 999 ∧ s.now < 999 + 2 ∧
     (tget {} s.trigx.ins 3 : TrigIn).stable = false) ∧
    up.takesWrite (.mspi) 0xD800 = true ∧
    (let s : State := { up with trigx := { outs := [(7, { active := true, endTick := 1004 })] } }
     (tget {} s.trigx.outs 7 : TrigOut).active = true ∧ Claims.quietClock s = true) := by decide

/-- A unit that selects channel 15 of unit 31, with one position in a slot of 4 KiB. -/
def unit31 (f : Acq → Acq) : State :=
  { up with
    acqs := [(31, f { acqCfg := 0x80000000, pre := 0, post := 1, cfg := { slot := 1, nslot := 1, rate := 1 } })]
    readers := [(4, { rdLo := [(31, 1)] })] }

/-- AcquisitionUnitsArmAndStop: an ARM that is accepted and one that is refused, a start event, a held half. -/
theorem test_acq_control :
    up.takesWrite .mspi (0x10000 + 0x800 * 31 + 0x30) = true ∧ up.takesWrite .mspi (0x10000 + 0x800 * 31 + 0x58) = true ∧
    up.takesWrite .mspi (0x10000 + 0x800 * 31 + 0x5C) = true ∧ (unit31 id).armCode 31 = 0 ∧ up.armCode 31 = 6 ∧
    (let s := unit31 fun a => { a with state := .waitStart, startAt := some 512 }
     (s.acq 31).state = .waitStart ∧ (s.acq 31).startAt = some 512) ∧
    (let s := unit31 fun a => { a with state := .held, rd := 0, wr := 1 }
     tfind (s.reader (whoIx .mspi)).rdLo 31 = some 1 ∧ (s.acq 31).rd ≤ 1 ∧ 1 ≤ (s.acq 31).wr) := by decide

/-- AcquisitionFramesFillTheRecord: a recording unit, and a finished record. -/
theorem test_acq_frame :
    (let s := unit31 fun a => { a with state := .post, armAt := 0 }
     let x := s.acq 31
     Claims.quietClock s = true ∧ x.state = .post ∧ x.startAt = none ∧ x.armAt ≤ s.nextFrame 31 ∧
     s.grid ≤ s.nextFrame 31 + 1280 ∧ x.positions ≠ 0 ∧ ∀ j ∈ x.used, (s.unitChan 31 j).adcRestart = none) ∧
    ((unit31 fun a => { a with state := .final }).acq 31).state = .final := by decide

/-- The same unit with the frame's result delivered: its interval completes, and its buffer is empty. -/
theorem test_acq_entry :
    (let s : State := { unit31 (fun a => { a with state := .pre, armed := 1, armAt := 1 }) with
       benches := [(63, { chans := [(7, { adcResults := [(800, 5)] })] })] }
     let x := s.acq 31
     s.nextFrame 31 = 800 ∧ (∀ j ∈ x.used, ((s.unitChan 31 j).adcResults.find? fun r => r.1 = 800).isSome = true) ∧
     (x.rcd.frames + 1) % x.k = 0 ∧ x.buf = 0 ∧ Memory.wf s.hbm = true) := by decide

/-- A live monitor with the window 1 V to 2 V and the reset levels. -/
def mon63 (f : Mon → Mon) : State :=
  { up with mons := [(63, f { cfg := 0x80000000, upper := 0x40000000, lower := 0x3F800000, settled := true, code := .inside })] }

/-- MonitorsJudgeTheirInput: enabling, settling, a trip, a return, the end of a period and of blanking. -/
theorem test_monitors :
    up.takesWrite .mspi (0xB000 + 0x20 * 63) = true ∧ (up.mon 63).en = false ∧ (up.mon 63).cfgCode 0x80000000 = 0 ∧
    (up.mon 63).cfgCode 0x83000000 ≠ 0 ∧ (mon63 id).monLive 63 = true ∧
    ((mon63 id).mon 63).en = true ∧
    ((mon63 id).mon 63).pattern = false ∧
    ((mon63 fun x => { x with blankEnd := some 2600 }).mon 63).blankEnd = some 2600 ∧
    f32Finite 0x40C00000 = true := by decide

/-- The monitor's ramp: towards its end and away from it, and a running one. -/
theorem test_ramps :
    up.takesWrite .mspi (0xB01C + 0x20 * 63) = true ∧
    (let s := mon63 fun x => { x with rampEnd := 0x3F800000 }
     0 < (f32Num (s.mon 63).rampEnd - f32Num (s.mon 63).rampStart) * signed 16 (0x80000001 : Word).toNat) ∧
    (let s := mon63 fun x => { x with ramping := true, rampAt := 600 }
     (s.mon 63).ramping = true ∧ Claims.quietClock s = true ∧ s.grid ≤ gridAfter 1 (s.mon 63).rampAt) := by decide

/-- The same monitor served by the nominal coefficients: 6 V trips its upper comparator, 1.5 V nothing, and lies inside. -/
def monNominal (f : Mon → Mon) : State := { mon63 f with met := { up.met with mirrorBad := true } }

theorem test_monitor_levels :
    (let s := monNominal id
     let lv := s.monLevel 63 (volt 0x40C00000)
     (s.mon 63).trips lv.1 lv.2 = (true, false) ∧ s.monLive 63 = true) ∧
    (let s := monNominal fun x => { x with assign := { x.assign with react := 4 } }
     let lv := s.monLevel 63 (volt 0x40C00000)
     (s.mon 63).trips lv.1 lv.2 = (true, false) ∧ s.monLive 63 = true ∧ (s.mon 63).assign.react.getLsbD 2 = true ∧
     s.coreOff = false ∧ tfind s.flt.active (1216 + 63) = none ∧
     ({ s with clk := { s.clk with pllLock := false }, pwr := { s.pwr with pstate := .transit } } : State).coreOff = true) ∧
    (let s := monNominal fun x => { x with assign := { x.assign with react := 2, site := some 0 } }
     (s.mon 63).assign.react.getLsbD 1 = true ∧ (s.mon 63).assign.react.getLsbD 2 = false ∧ s.monLive 63 = true) ∧
    (let s := monNominal id
     let lv := s.monLevel 63 (volt 0x3FC00000)
     (s.mon 63).trips lv.1 lv.2 = (false, false)) ∧
    (let s := monNominal fun x => { x with settled := false }
     (s.mon 63).settled = false ∧ s.blanked 63 = false ∧
     ((s.monRefs 63).1.all fun u => decide (volt 0x3FC00000 + (s.mon 63).hyst ≤ u)) = true ∧
     ((s.monRefs 63).2.all fun l => decide (l + (s.mon 63).hyst ≤ volt 0x3FC00000)) = true) := by decide

/-- ReferencesAndReadbacks: a write of MET_RB_CTRL that starts, one that is refused, and a queued request. -/
theorem test_readback :
    up.met.running = true ∧ f32Finite 0x38D1B717 = true ∧ up.takesWrite .mspi (0xA104 + 0x20 * 3) = true ∧
    (let s : State := { up with met := { up.met with rb := [(3, { sel := 0x0E000000 })] } }
     s.rbCode 3 = 0) ∧
    (let s : State := { up with met := { up.met with rb := [(3, { sel := 0x0F000000 })] } }
     s.rbCode 3 = 3) ∧
    (let s : State := { up with met := { up.met with rbQueue := [(3, 0x0E000000, 1, 800)] } }
     s.met.rbQueue = [(3, 0x0E000000, 1, 800)] ∧ Claims.quietClock s = true ∧ [(0 : BitVec 24), 1].length = 2 ^ 1 ∧
     s.met.rbQueue.Pairwise fun a b => 8 * a.2.2.2 + a.1 ≤ 8 * b.2.2.2 + b.1) := by decide

/-- A metrology die whose seal is in a state, with CAL_EN high and the digital die in reset. -/
def sealed (q : SealState) : State :=
  { up with met := { up.met with sealState := q, calEn := true }, top := { up.top with resetLow := true } }

/-- SealSessionsFollowTheirTable: whole frames of OPEN, CLOSE and ABORT. -/
theorem test_seal_frames :
    Claims.metWhole (sealed .sealed) 3 0 [] 0x3A = true ∧ (sealed .sealed).dieReset = true ∧
    Claims.metWhole up 3 0 [] 0x3A = true ∧ up.dieReset = false ∧
    Claims.metWhole (sealed .session) 4 0 [1, 2, 3] 0xBC = true ∧ Claims.metWhole (sealed .session) 5 0 [] 0x4E = true := by
  decide +kernel

/-- MetFramesAnswerAndWrite: a WRITE of the last store word in SESSION and in SEALED, MEASURE, a wrong CRC, code 7. -/
theorem test_met_write_session : Claims.metWhole (sealed .session) 2 0x4107F [7] 0x76 = true := by decide +kernel
theorem test_met_write_sealed : Claims.metWhole (sealed .sealed) 2 0x4107F [7] 0x76 = true := by decide +kernel
/-- A READ in SEALED that reaches MET_NONCE, and one that does not. -/
theorem test_met_read :
    (sealed .sealed).met.running = true ∧ (sealed .sealed).met.sealState = .sealed ∧
    (nonceAddr ≤ (0x80001F : BitVec 24).toNat + 1 ∧ (0x80001F : BitVec 24).toNat + 1 < respAddr) ∧
    ¬ (nonceAddr ≤ (0x800000 : BitVec 24).toNat) := by decide
theorem test_met_measure_codes : Claims.metWhole up 6 0 [0x0E000000, 1] (crc8 (hostBytes 6 0 [0x0E000000, 1])) = true ∧
    [(0 : BitVec 24), 1].length = 2 ^ (1 : Word).toNat := by decide +kernel
theorem test_met_write_top : (0x4107F : BitVec 24).toNat < storeTop := by decide
theorem test_met_measure : Claims.metWhole up 6 0 [0x0E000000, 0xF] 0x16 = true := by decide +kernel
theorem test_met_measure_node : fld 0x0E000000 24 8 < 0xF ∧ (0xF : Word).toNat < 16 ∧
    0xA ≤ fld 0x0B000040 24 8 ∧ fld 0x0B000040 24 8 ≤ 0xB ∧ 64 ≤ fld 0x0B000040 0 9 := by decide
theorem test_met_bad_crc : crc8 (hostBytes 2 0x4107F [7]) ≠ 0x77 := by decide +kernel
theorem test_met_undefined : Claims.metWhole up (7 : Byte).toNat 0 [] 0x62 = true ∧ (7 : Byte).toNat ∉ [1, 2, 3, 4, 5, 6, 0xF] := by decide +kernel

/-- MetrologyDieResetsAndMirror: RESET in reset, a stopped die, a mirror still to be loaded. -/
theorem test_met_reset_frame : Claims.metWhole (sealed .session) 0xF 0 [] 0xD2 = true := by decide +kernel

theorem test_met_resets :
    Claims.metWhole up 0xF 0 [] 0xD2 = true ∧ up.dieReset = false ∧ up.met.running = true ∧
    (let s : State := { up with met := { up.met with running := false } }
     s.met.running = false ∧ s.top.mirrorDone = false ∧ s.ready = true) ∧
    up.top.mirrorDone = false ∧ up.ready = true ∧ ¬ 2 ≤ up.met.mirrorTries ∧
    2 ≤ ({ up with met := { up.met with mirrorTries := 2 } } : State).met.mirrorTries := by decide +kernel

/-! ## Images, jobs and ports -/

def imgIn (f : Img → Img) : State := { up with img := f up.img }

/-- ImageLoadsAndChecks: each command in a state that takes it, and each end. -/
theorem test_img_ctrl :
    up.takesWrite .mspi 0x8000 = true ∧ fld (1 : Word) 0 4 = 1 ∧ fld (2 : Word) 0 4 = 2 ∧ fld (8 : Word) 0 4 = 8 ∧
    (imgIn fun x => { x with stg := .loading, copyFlash := true, copyAddr := 0xFFFFF0, copyLen := 16 }).img.stg = .loading ∧
    0xFFFFF0 + 16 ≤ 2 ^ 24 ∧ bit (up.spim.cfg 0) 31 = bit (up.spim.cfg 0) 30 ∧ up.top.booting = false ∧ up.spim.flashMode = true ∧
    (imgIn fun x => { x with srcFlash := true }).img.srcFlash = true := by decide

/-- An image without gangs, in a container that fails its first check. -/
def box : Container := { content := some {} }

theorem test_img_check :
    (let s := imgIn fun x => { x with stg := .checking, staged := some box, copyLen := 7 }
     s.img.stg = .checking ∧ s.img.staged = some box ∧ s.top.booting = false ∧ (s.admitBad box s.img.copyLen).isSome = true) := by
  decide +kernel

/-- CommitsTakeEffect: a refused and an accepted COMMIT, and its completion. -/
theorem test_commit :
    fld (4 : Word) 0 4 = 4 ∧ up.img.stg ≠ .checked ∧
    (let s := imgIn fun x => { x with stg := .committing, staged := some box }
     s.img.stg = .committing ∧ s.img.staged = some box ∧ box.content = some {} ∧ s.top.booting = false) := by decide +kernel

theorem test_commit_quiescent :
    (imgIn fun x => { x with stg := .checked, staged := some box }).notQuiescent.1 = false ∧
    (imgIn fun x => { x with stg := .checked, staged := some box,
                             applies := [{ armed := true }] }).notQuiescent.1 = true := by decide

/-- StagingAndApply: the administrator owns every bench before a commit; an item of the last bench, a full area, a bad target. -/
def stgState (t : Word) (n : Nat) : State :=
  { up with
    img := { up.img with stgPort := [(0, { target := t, value := 9 })] }
    ports := [(0, { linkUp := true, en := true })]
    benches := [(63, { stgItems := List.replicate n (0, 0) })]
    gangs := [(1, { cfg := { benches := [63], bw := 1, partition := 0 } })] }

theorem test_staging :
    (stgState (at' 63 26 ||| 0x800) 255).takesWrite (.port 0) 0x8108 = true ∧
    (stgState (at' 63 26 ||| 0x800) 255).stgOwn 0 = true ∧
    (stgState (at' 63 26 ||| 0x800) 255).itemBenches (at' 63 26 ||| 0x800) = [63] ∧
    fld (at' 63 26 ||| 0x800) 16 6 = 0 ∧ fld (at' 63 26 ||| 0x10800 : Word) 16 6 ≠ 0 := by decide

/-- A state with one queued job of port 0, tag 5, whose descriptor is given. -/
def jobState (ws : List Word) (f : State → State) : State :=
  f { up with
    ports := [(0, { linkUp := true, en := true, jobs := [{ tag := 5, words := ws }], sqSize := 16, cqSize := 16, nqSize := 16 })]
    benches := [(63, { awake := true, seq := { state := .idle } })]
    gangs := [(1, { cfg := { benches := [63], bw := 1, partition := 0 } })]
    partPort := [(0, 0)], regions := [{ base := 0x1000, size := 0x1000, partition := 0 }] }

/-- What makes the job of jobState startable. -/
def starts (ws : List Word) (f : State → State) : Bool :=
  let s := jobState ws f
  let j : Job := { tag := 5, words := ws }
  s.job 0 5 == some j && j.phase == .queued && s.mayStart 0 j && j.fieldBad.isNone && s.img.stg != .committing && s.powered

theorem starts_sound (ws : List Word) (f : State → State) (h : starts ws f = true) :
    Claims.Startable (jobState ws f) 0 5 { tag := 5, words := ws } := by
  simpa [starts, Claims.Startable, and_assoc] using h

theorem test_apply_job :
    starts [0x00050006, 3, 2, 0, 4] id = true ∧
    (let s := jobState [0x00050006, 3, 2, 0, 4] id
     bitsSet 64 2 = [1] ∧ s.ownerOf (some (s.gang 1).cfg.partition) = some 0 ∧ (tfind s.gangs 1).isSome = true ∧
     (s.bench 63).stgOvf = false) := by decide

/-- A port that may fetch (R268), with items staged for bench 63. -/
def fetching : State :=
  jobState [] fun s => { s with
    ports := [(0, { linkUp := true, en := true, sqSize := 16, cqSize := 16, sqTail := 1 })]
    benches := [(63, { stgItems := [(at' 63 26 ||| 0x800, 9)], stgOvf := true })] }

theorem test_apply_fetch :
    (let j : Job := { words := [0x00050006, 3, 2, 0, 4], tag := 5 }
     j.type = 6 ∧ j.fieldBad = none ∧ Claims.mayFetch (fetching.port 0) = true ∧ (fetching.port 0).jobs = [] ∧
     (bitsSet 64 (j.w64 2)).length ≤ 1 ∧ (bitsSet 64 (j.w64 2)).flatMap fetching.gangBenches = [63] ∧
     fetching.ownerOf (some (fetching.gang 1).cfg.partition) = some 0) ∧
    (let s := jobState [0x00050006, 3, 2, 0, 4] id
     let j : Job := { tag := 5, words := [0x00050006, 3, 2, 0, 4] }
     s.job 0 5 = some j ∧ j.refuse = 0 ∧ j.takenOvf = false) := by decide

theorem test_apply_refused :
    ((jobState [0x00050006, 3, 2, 0, 4] id).applyBad [1] (.epoch 100) []).isSome = true ∧
    ((jobState [0x00050006, 3, 2, 0, 4] fun s => { s with
        benches := [(63, { seq := { state := .armed } })] }).applyBad [1] (.epoch 100) []) = none := by decide

/-- A gang at whose next beat an armed APPLY lands, with items legal and not, and one that drains. -/
def landing (its : List (Word × Word)) : Apply := { armed := true, cut := .beat 0, gangs := [0, 5], items := its }
def applying (its : List (Word × Word)) (x : Bench) : State :=
  let s := gang0 (mw 0 0) x
  { s with img := { s.img with applies := [landing its] } }

theorem test_apply_lands :
    (let s := applying [(0x00800000, 0x3F800000)] issuing
     Claims.due (s.modImg fun x => { x with applies := [] }) 0 3 (mw 0 0) = true ∧ muOp (mw 0 0) = 0 ∧ 0 < (s.gang 0).cfg.bw ∧
     (landing []).hits 0 0 s.now s.grid (muCut (mw 0 0)) = true ∧ (landing []).hits 0 1 s.now s.grid (muCut (mw 0 0)) = false ∧
     itSpace 0x00800000 = 2 ∧ s.badItem [0] (fun _ => []) [(0x00800000, 0x3F800000)] = none ∧
     (s.badItem [0] (fun _ => []) [(0x00800000, 0x7F800000)]).isSome = true) ∧
    (let s := applying [] { seq := { state := .drain } }
     Claims.gangOk s 0 = true ∧ Claims.allBenches s 0 (fun x => x.seq.state == .drain && x.fifo.isEmpty && x.flight.isEmpty) = true ∧
     s.img.applies = [landing []] ∧ 0 ∈ (landing []).gangs ∧ tfind (landing []).landed 0 = none) := by decide

/-- QueuesTakeDescriptors: doorbell, enabling, disabling, a fetch. -/
theorem test_queues :
    (jobState [] id).takesWrite (.port 0) 0x601C = true ∧ (jobState [] id).takesWrite (.port 0) 0x6000 = true ∧
    ringOk 0x1000 16 = true ∧ ringOk 0x1008 16 = false ∧ ringOk 0x1000 4096 = true ∧ ringOk 0x1000 24 = false ∧
    (jobState [] fun s => { s with ports := [(0, { linkUp := true })] }).takesWrite (.port 0) 0x6000 = true ∧
    (let x : Port := { linkUp := true, en := true, sqSize := 16, cqSize := 16, sqTail := 1 }
     Claims.mayFetch x = true ∧ Claims.mayFetch { x with linkUp := false } = false ∧
     ({ words := [0x0005000A] } : Job).typeBad = true) := by decide

/-- JobsDoTheirWork: a start, a stop, a stream, a fetch each way, a measurement, a report. -/
theorem test_run_jobs :
    starts [0x00050001, 0, 2, 0, 100, 0] id = true ∧
    (let s := jobState [0x00050001, 0, 2, 0, 100, 0] id
     s.ownsGang 0 1 = true ∧ s.gangBenches 1 ≠ [] ∧ s.startBad [1] = none ∧ s.inTime 100 = true ∧ s.inTime s.nextCut = true) ∧
    starts [0x00050001, 1, 2, 0] id = true ∧
    (let s := jobState [0x00050001, 1, 2, 0] id
     (s.gangState 1).busy = false ∧ ∀ i ∈ (s.port 0).jobs, guyWait i i = false) := by decide

/-- A start over the guyline, and a stop of a gang ARMED before its start epoch beside a running one. -/
def twoGangs (s : State) : State :=
  { s with
    benches := [(62, { seq := { state := .armed } }), (63, { seq := { state := .issue } })]
    gangs := [(0, { cfg := { benches := [62], bw := 1, partition := 0 }, startEpoch := 100 }),
              (1, { cfg := { benches := [63], bw := 1, partition := 0 } })] }

theorem test_guy_and_stop_jobs :
    starts [0x00050001, 0x20, 2, 0, 0, 0] id = true ∧
    (let s := jobState [0x00050001, 0x20, 2, 0, 0, 0] id
     bit (0x20 : Word) 5 = true ∧ s.ownsGang 0 1 = true ∧ s.guyBad [1] = none) ∧
    starts [0x00050001, 1, 3, 0] twoGangs = true ∧
    (let s := jobState [0x00050001, 1, 3, 0] twoGangs
     bitsSet 64 3 = [0, 1] ∧ s.ownsGang 0 0 = true ∧ s.ownsGang 0 1 = true ∧ Claims.gangOk s 0 = true ∧ Claims.gangOk s 1 = true ∧
     s.gangState 0 = .armed ∧ s.grid < 256 * (s.gang 0).startEpoch ∧ (s.gangState 1).busy = true ∧ s.gangState 1 = .issue ∧
     s.atBoundary 1 = true ∧ s.fifoFull 1 = false) := by decide

def fed (s : State) : State :=
  { s with benches := [(63, { strm := { cfg := { fmt := 1, hostFed := true, base := 0x1000, size := 4096 } } })] }

theorem test_stream_job :
    starts [0x00050002, 63, 0x100, 0, 4, 0] fed = true ∧
    (let s := jobState [0x00050002, 63, 0x100, 0, 4, 0] fed
     let y := (s.bench 63).strm
     s.benchOwner 63 = some 0 ∧ y.cfg.fmt ≠ 0 ∧ y.cfg.hostFed = true ∧ 4 % max 1 y.recSize = 0 ∧ 4 ≤ y.cfg.size ∧ y.prod + 4 ≤ y.limit ∧
     Memory.wf s.hbm = true) := by decide

theorem test_fetch_job :
    starts [0x00050003, 1, 0x1FFC, 0, 0x100, 0, 4, 0] id = true ∧ starts [0x00050003, 0, 0x1000, 0, 0x100, 0, 4, 0] id = true ∧
    (let s := jobState [0x00050003, 1, 0x1FFC, 0, 0x100, 0, 4, 0] id
     0 ∈ s.partsOf 0 ∧ s.rangeIn 0 0x1FFC 4 = true ∧ s.rangeIn 0 0x1FFD 4 = false ∧ Memory.wf s.hbm = true ∧
     ∀ p ∈ s.ports, Memory.wf p.2.hostMem = true) := by decide

theorem test_measure_job :
    starts [0x00050004, 7, 0, 0x80000000, 1, 0, 0x100, 0] id = true ∧
    (let s := jobState [0x00050004, 7, 0, 0x80000000, 1, 0, 0x100, 0] id
     let j : Job := { words := [0x00050004, 7, 0, 0x80000000, 1, 0, 0x100, 0] }
     j.measured = [(63, 7)] ∧ s.benchOwner 63 = some 0 ∧ s.top.cwRun = false ∧ j.w 4 = 1 ∧ s.met.running = true ∧
     ∀ p ∈ s.ports, Memory.wf p.2.hostMem = true) ∧
    (let j : Job := { tag := 5, words := [0x00050004, 7, 0, 0x80000000, 2, 0, 0x100, 0], phase := .running, startTick := 512 }
     let s := jobState [] fun s => { s with ports := [(0, { jobs := [j] })] }
     s.job 0 5 = some j ∧ j.phase = .running ∧ j.done + 1 < (j.w 4).toNat) := by decide

theorem test_report_job :
    starts [0x00050007, 63, 0x100, 0, 0, 1] (fun s => { s with raes := [(63, { state := .done })] }) = true ∧
    (let s := jobState [] fun s => { s with raes := [(63, { state := .done })] }
     s.raeOwner 63 = some 0 ∧ (0 : Word).toNat + (1 : Word).toNat ≤
       2 ^ ((s.rae 63).cfg.zr + (s.rae 63).cfg.xr + (s.rae 63).cfg.yr) ∧ (s.rae 63).state = .done) := by decide

/-- JobsCalibrateScheduleAndEnd: a calibration, a schedule of the last comparator, a fence, a completion. -/
theorem test_other_jobs :
    starts [0x00050005, 0, 0, 0x80000000] id = true ∧
    (let s := jobState [0x00050005, 0, 0, 0x80000000] id
     s.benchOwner 63 = some 0 ∧ (s.bench 63).seq.state.busy = false ∧ (s.bench 63).awake = true) ∧
    starts [0x00050008, 15, 1, 0, 999999999] id = true ∧
    (let s := jobState [0x00050008, 15, 1, 0, 999999999] id
     fld (15 : Word) 8 2 = 0 ∧ fld (15 : Word) 0 4 = 15 ∧ s.ownerOf (some (s.cmp 15).part) = some 0 ∧ (s.cmp 15).armed = false) ∧
    starts [0x00050009] id = true := by decide

theorem test_job_complete :
    (let j : Job := { tag := 5, words := [0x00050109], phase := .ended }
     let s := jobState [] fun s => { s with ports := [(0, { en := true, jobs := [j], cqSize := 16, cqTail := 15 })] }
     (s.port 0).jobs = [j] ∧ (s.port 0).en = true ∧ (s.port 0).quiescing = false ∧
     ∀ p ∈ s.ports, Memory.wf p.2.hostMem = true) := by decide

/-- AperturesAndLinks: a byte at each end of the own region and one past it; a present port to lose and to train. -/
theorem test_apertures :
    (let s := jobState [] id
     (s.port 0).linkUp = true ∧ s.powered = true ∧ s.reach 0 0x1000 = .own ∧ s.reach 0 0x1FFF = .own ∧
     s.reach 0 0x2000 = .none ∧ s.reach 1 0x1FFF = .other ∧ Memory.wf s.hbm = true ∧ s.present 3 = true ∧
     (4 : BitVec 5).toNat ≤ s.lanesOf ∧ s.lanesOf < (8 : BitVec 5).toNat ∧ s.pwr.dieUp = true ∧ s.pwr.pstate ≠ .aon) := by decide

/-! ## Serial ports -/

/-- FramesCarryTheCrcOfR284 and MspiFramesAccessAndAnswer: CRC bytes worked out bit by bit, for a frame of each kind, the last word of
the map and a burst that runs past it. -/
theorem test_mspi_read : Claims.mspiWhole up 32 0x7000 [] 0x6C = true ∧ up.top.porstLow = false := by decide +kernel
theorem test_mspi_read_last : Claims.mspiWhole up 63 0xFFFFFC [] 0x7D = true := by decide +kernel
theorem test_mspi_read_past : Claims.mspiWhole up 127 0xFFFFF0 [] 0xC2 = true := by decide +kernel
theorem test_mspi_write : Claims.mspiWhole up 65 0x4008 [1, 2] 0x93 = true := by decide +kernel
theorem test_mspi_write_last : Claims.mspiWhole up 129 0xFFFFF8 [1, 2] 0xF2 = true := by decide +kernel
theorem test_mspi_status : Claims.mspiWhole up 160 0 [] 0xFF = true := by decide +kernel
theorem test_mspi_bad_crc : crc8 (hostBytes 32 0x7000 []) ≠ 0x6D := by decide +kernel
theorem test_mspi_bad_op :
    Claims.mspiWhole up (0xE3 : Byte).toNat 2 [5] 0xE7 = true ∧ (0xE3 : Byte).toNat / 32 ∈ [0, 6, 7] := by decide +kernel
theorem test_mspi_unaligned : Claims.mspiWhole up 64 2 [7] 0x0D = true ∧ (2 : BitVec 24).toNat % 4 ≠ 0 := by decide +kernel
theorem test_crc_serial : Claims.crcSerial (hostBytes 32 0x7000 []) = 0x6C := by decide +kernel
theorem test_met_crc : up.met.running = true ∧ up.met.crcErr = false := by decide

/-- PspiFramesQueueAndCapture: a queue with room, a full one, a frame to start, a safe frame, a frame to end. -/
def pspi (f : Spim → Spim) : State := { up with spim := f up.spim }

theorem test_pspi :
    up.takesWrite .mspi 0x7040 = true ∧
    (let s := pspi fun x => { x with queue := [{ frame := 63, src := 1, tick := 990, rank := 0 }] }
     s.spim.cur = none ∧ s.spim.safeOn = false ∧ Claims.quietClock s = true ∧ s.spim.queue = [⟨63, 1, 990, 0⟩]) ∧
    (let s := pspi fun x => { x with safeOn := true, queue := [⟨63, 2, 990, 0⟩] }
     s.spim.cur = none ∧ s.spim.full = true ∧ s.spim.queue = [⟨63, 2, 990, 0⟩] ∧ s.spim.flashFrom = none) ∧
    (let s := pspi fun x => { x with flashFrom := some 995, flashLeft := 256, queue := [⟨63, 0, 990, 64⟩] }
     s.spim.cur = none ∧ s.spim.flashFrom = some 995 ∧ s.spim.queue = [⟨63, 0, 990, 64⟩] ∧ 990 ≤ 995) ∧
    (let s := pspi fun x => { x with cur := some ⟨63, 1, 990, 0⟩, sent := [(4, 9)], curCap := true }
     s.spim.sent.length ≤ [0xFFFFFFFF].length ∧ s.spim.curCut = false ∧ s.spim.curCap = true) := by decide

/-! ## Time, guyline, clocks and power -/

def inTime (f : Time → Time) : State := { up with time := f { up.time with lost := false, priId := 7 } }
def pri : PtpId := { clock := 7, port := 0, domain := 0 }

/-- PtpMastersAndExchanges: messages of the primary, of the backup, of neither; an exchange without and with t1. -/
theorem test_ptp :
    (inTime id).fromPri pri = true ∧
    (let s := inTime fun t => { t with bakId := 8 }
     s.fromPri { pri with clock := 8 } = false ∧ s.fromBak { pri with clock := 8 } = true ∧
     s.fromPri { pri with clock := 9 } = false ∧ s.fromBak { pri with clock := 9 } = false) ∧
    (inTime fun t => { t with bakId := 8, tmo := 3, bakAnn := some (1000, 0) }).time.annLimit (some (1000, 0)) ≠ none ∧
    (let s := inTime fun t => { t with exch := some { id := pri } }
     s.time.src = 0 ∧ s.fromMaster pri = true) ∧
    (let x : Exchange := { t1 := some 100, t2 := 110, t3 := 120, id := pri }
     x.t1 = some 100 ∧ x.id = pri ∧ x.resp = none) ∧
    (let x : Exchange := { t2 := 110, t3 := 120, id := pri, resp := some (130, 0) }
     x.t1 = none ∧ x.id = pri ∧ x.resp = some (130, 0)) := by decide

/-- OffsetsStepServoOrRefuse: a PPS edge on an armed input, a write that arms a step, an accepted offset that ages. -/
theorem test_offsets :
    (let s := inTime fun t => { t with src := 1 }
     let s := { s with top := { s.top with inArmed := 0x800 } }
     s.time.src = 1 ∧ s.guyArmed 7 = true ∧ s.powered = true) ∧
    up.takesWrite .mspi 0x4020 = true ∧ 2 ≤ (inTime fun t => { t with quality := 2 }).time.quality := by decide

/-- PulsesAndComparatorsKeepTheirTime: a pulse to begin and one to end, a comparator armed in time and one armed late. -/
theorem test_pps_cmp :
    (let s := inTime fun t => { t with ppsOut := true }
     s.time.ppsOut = true ∧ s.time.ppsLow = false ∧ Claims.quietClock s = true) ∧
    (inTime fun t => { t with ppsLow := true, ppsEnd := 1800 }).time.ppsLow = true ∧
    (let s := inTime fun t => { t with cmps := [(15, { armed := true, ns := 999999999, tag := 5 })] }
     (s.cmp 15).armed = true ∧ Claims.quietClock s = true ∧ (s.cmp 15).action = 0) ∧
    ((inTime fun t => { t with cmps := [(15, { armed := true, armLate := true })] }).cmp 15).armed = true := by decide

/-- A device with a waiting start of gang 1 whose agreement is satisfied but for the stepping, which is a fuse. -/
def guyState (f : Guy → Guy) : State :=
  jobState [0x00050001, 0x20, 2, 0] fun s => { s with
    guy := f { s.guy with waiting := [(0, 5, 900)], descWritten := true, descStepping := BitVec.ofNat 8 Config.stepping }
    top := { s.top with inArmed := 0xFF0 } }

/-- GuylineAgreesAndStrobes: the agreement is satisfied whatever the fuse holds. -/
theorem test_guy_agreed : (guyState fun g => { g with strobeMaster := true }).agreed = true := by
  have one : Config.stepping ≤ 1 := Nat.max_le.mpr ⟨Nat.zero_le 1, Nat.min_le_left 1 Config.steppingFuse⟩
  have h : (BitVec.ofNat 8 Config.stepping).toNat = Config.stepping := by
    rw [BitVec.toNat_ofNat]; exact Nat.mod_eq_of_lt (by omega)
  simp only [State.agreed, State.agreeReason, guyState, jobState, h, ne_eq, not_true_eq_false, if_false]
  decide

theorem test_guy_strobe :
    (let s := guyState fun g => { g with strobeMaster := true }
     s.guy.strobeMaster = true ∧ s.guy.g0Part = true ∧ s.guy.pull1 = false ∧ s.guy.level.getLsbD 0 = true ∧
     Claims.quietClock s = true) ∧
    (guyState fun g => { g with pull1 := true }).guy.pull1 = true := by decide

theorem test_guy_edge :
    (let s := guyState fun g => { g with strobeMaster := true }
     s.guy.waiting = [(0, 5, 900)] ∧ (s.job 0 5).isSome = true ∧ s.guyArmed 1 = true ∧ s.clk.pllLock = true ∧
     s.startBad [1] = none ∧ s.gangBenches 1 ≠ [] ∧ s.guyArmed 6 = true ∧ s.guy.g6Driving = false) := by decide

theorem test_guy_in : (guyState fun g => { g with strobeMaster := true }).agreeUpdate.guyIn 0 = true := by
  have a : (guyState fun g => { g with strobeMaster := true }).agreeUpdate.agreed = true := test_guy_agreed
  have l : (guyState fun g => { g with strobeMaster := true }).agreeUpdate.guy.level.getLsbD 0 = true := by
    have h : (guyState fun g => { g with strobeMaster := true }).guy.level.getLsbD 0 = true := by decide
    exact h
  simp [State.guyIn, State.pulls, a, l]

/-- ClocksLoseAndGainLock: a reference to lose, a PLL to lock, outputs to enable and to disable. -/
theorem test_clocks :
    (let s := { up with clk := { up.clk with refOk := true, outs := [(7, { en := true, div := 4 })] } }
     s.clk.refOk = true ∧ s.clk.pllLock = true ∧ s.ready = true ∧ tfind s.flt.active 1328 = none ∧ s.srcClass 1328 = 2 ∧
     s.takesWrite .mspi (0x1040 + 8 * 7) = true ∧ (tget {} s.clk.outs 7 : ClkOut).en = true ∧
     (tget {} s.clk.outs 6 : ClkOut).en = false) ∧
    (let s := { up with clk := { up.clk with refOk := true, pllLock := false } }
     s.clk.pllLock = false ∧ s.flt.leaving = false ∧ s.powered = true ∧ s.flt.unsampled = []) ∧
    (let s := { up with clk := { up.clk with refOk := true, pllLock := false },
                        pwr := { up.pwr with pstate := .transit }, flt := { up.flt with unsampled := [(1328, false)] } }
     s.clk.pllLock = false ∧ s.clk.refOk = true ∧ s.flt.leaving = false ∧ s.pwr.pstate = .transit ∧ s.pwr.dieUp = true ∧
     s.flt.unsampled = [(1328, false)] ∧ tfind s.flt.active 1328 = none) ∧
    4 ≤ fld (0x80000004 : Word) 0 10 ∧ fld (0x80000003 : Word) 0 10 = 3 := by decide

/-- EpochsSyncAndBenchClocks: a SYNC edge, a waking and an awake bench, a gated one to wake, an idle and a busy one to gate. -/
theorem test_sync_bench :
    Claims.quietClock up = true ∧ (up.guy.syncSe = true → up.top.inArmed.getLsbD 12 = true) ∧
    (let s := { up with benches := [(63, { waking := true })] }
     (s.bench 63).waking = true ∧ s.ready = true) ∧
    (let s := { up with benches := [(63, { awake := true, dllLock := true })] }
     (s.bench 63).awake = true ∧ (s.bench 63).dllLock = true ∧ tfind s.flt.active (1026 + 3 * 63) = none ∧
     s.coreOff = false ∧ ({ s with clk := { s.clk with pllLock := false }, pwr := { s.pwr with pstate := .transit } } : State).coreOff = true) ∧
    up.takesWrite .mspi (benchAt 63 0x3C0) = true ∧ (up.bench 63).awake = false ∧ (up.bench 63).waking = false ∧
    (let s := { up with
       benches := [(63, { seq := { state := .armed } })], gangs := [(1, { cfg := { benches := [63], bw := 1, partition := 0 } })] }
     s.takesWrite .mspi (benchAt 63 0x3C0) = true ∧ s.gangOf 63 = some 1 ∧ (s.gangState 1).busy = true) := by decide

/-- PowerStatesAndHeat: targets in each state, the maxima, transitions, the timer, 16 powers. -/
theorem test_power :
    up.takesWrite .mspi 0x2000 = true ∧ bit (3 : Word) 31 = false ∧ fld (0x80000003 : Word) 0 3 = 3 ∧
    (let s := { up with pwr := { up.pwr with pstate := .transit, target := 3 } }
     s.pwr.pstate = .transit ∧ s.clk.pllLock = true ∧ s.top.wasReady = true ∧ s.sec.hbmKey = none ∧
     tfind s.flt.active 1342 = none ∧ s.srcClass 1342 = 2 ∧ ({ s with clk := { s.clk with pllLock := false } } : State).pwr.target = 3 ∧
     ({ s with sec := { s.sec with hbmKey := some 1 } } : State).sec.hbmKey ≠ none) ∧
    (let s := { up with pwr := { up.pwr with pstate := .transit, target := 1 } }
     s.pwr.pstate = .transit ∧ s.pwr.target = 1) ∧
    (let s := { up with pwr := { up.pwr with pstate := .transit, target := 2 } }
     s.pwr.pstate = .transit ∧ s.pwr.target = 2) ∧
    (let s := { up with pwr := { up.pwr with wakeArm := true } }
     s.pwr.wakeArm = true ∧ Claims.quietClock s = true) ∧
    up.pwr.pstate ≠ .off ∧ (List.replicate 16 (0x41200000 : Word)).length = 16 ∧
    (List.replicate 16 (0x41200000 : Word)).all f32Finite = true := by decide

/-! ## Faults, resets, keys and boundary scan -/

/-- A site of bench 63 in gang 1, in partition 0. -/
def siteState (x : Site) (f : State → State) : State :=
  f { up with
    benches := [(63, { awake := true, seq := { state := .issue } })]
    gangs := [(1, { cfg := { benches := [63], bw := 1, partition := 0 } })]
    sites := [(0, { x with cfg := { x.cfg with gang := 1, benches := [63] } })] }

/-- FaultsLatchAndReact: a CE, a UC and an FT source at the ends of their ranges, one to deassert. -/
theorem test_faults :
    (let s := siteState {} fun s => { s with top := { s.top with wasReady := true } }
     s.top.porstLow = false ∧ tfind s.flt.active 1359 = none ∧ s.srcClass 1332 = 0 ∧ s.srcClass 1335 = 0 ∧
     s.srcClass 1023 = 1 ∧ s.srcSites 1023 = [0] ∧ (s.site 0).state = .normal ∧ s.srcClass 1359 = 2 ∧
     s.pwr.pstate ≠ .fault ∧ s.pwr.pstate ≠ .aon ∧ s.top.wasReady = true ∧ Claims.sampled s 0 = true) ∧
    Claims.sampled State.reset 1335 = false ∧ Claims.sampled State.reset 1336 = true ∧ State.reset.top.porstLow = false ∧
    (let s := siteState { state := .safe } fun s => { s with flt := { s.flt with active := [(1023, false)] } }
     (tfind s.flt.active 1023).isSome = true ∧ (s.site 0).state = .safe ∧ (s.sourceOff 1023).siteHeld 0 = false) ∧
    (let s := { State.reset with flt := { State.reset.flt with active := [(1335, false)] } }
     (tfind s.flt.active 1335).isSome = true ∧ Claims.sampled s 1335 = false) := by decide

/-- SitesAndDeviceRecover: a site in each state, a channel, the device in FAULT, the writes of FLT_CTRL. -/
theorem test_recovery :
    (siteState { state := .quiet, quietEnd := 5000 } id).site 0 = { (siteState {} id).site 0 with state := .quiet, quietEnd := 5000 } ∧
    Claims.quietClock up = true ∧ ((siteState {} id).site 0).recCnt < (siteState {} id).flt.limUc ∧
    ({ up with clk := { up.clk with pllLock := false } } : State).clk.pllLock = false ∧ ((siteState { state := .restart, cfg := { resume := true } } id).site 0).cfg.resume = true ∧
    ((siteState { state := .restart } id).site 0).releaseAt = none ∧
    ((siteState { state := .restart } id).gangState 1).running = true ∧
    ((siteState { state := .restart, releaseAt := some 9 } id).site 0).releaseAt = some 9 ∧
    (let s := { up with benches := [(63, { chans := [(7, { quietFrom := some 3 })] })] }
     ((s.chan (511 / 8) (511 % 8)).quietFrom).isSome = true) ∧
    (let s := { up with pwr := { up.pwr with pstate := .fault, target := 3 } }
     s.pwr.pstate = .fault ∧ s.ftHeld = false ∧ s.flt.recFt < s.flt.limFt ∧ s.top.wasReady = true ∧ s.flt.leaving = false ∧
     s.flt.ftLatched = false ∧ Claims.quietClock s = true ∧
     ({ s with clk := { s.clk with pllLock := false } } : State).ftHeld = false) ∧
    up.pwr.pstate ≠ .fault ∧
    up.takesWrite .mspi 0x3004 = true ∧ fld (0x80000000 : Word) 28 4 = 8 ∧ fld (0x10000000 : Word) 28 4 = 1 := by decide

/-- ResetsAndStartUp: a device in cold reset, in fuse load, in warm reset, with a boot due. -/
theorem test_resets :
    ({ up with top := { up.top with porstLow := true } } : State).top.porstLow = true ∧
    ({ up with top := { up.top with porstLow := true, resetLow := true } } : State).top.resetLow = true ∧
    (let s := { State.reset with top := { State.reset.top with phase := .fuses } }
     s.top.phase = .fuses ∧ s.pwr.pstate = .aon ∧ s.dieReset = false ∧ s.top.jtagHold = false ∧ Claims.noFatal s = true ∧ tfind s.flt.active 1342 = none ∧
     s.srcClass 1342 = 2 ∧ s.top.wasReady = false) ∧
    up.takesWrite .mspi 0x80 = true ∧ up.top.porstLow = false ∧ up.takesWrite .mspi 0x88 = true ∧
    (let s := { State.reset with top := { State.reset.top with phase := .up, resetLow := true } }
     s.top.resetLow = true ∧ s.top.jtagHold = false ∧ s.pwr.pstate = .aon ∧ s.top.porstLow = false ∧ Claims.noFatal s = true) ∧
    tfind up.flt.active 1341 = none ∧
    up.top.bootDue = true ∧ up.ready = true ∧ up.img.stg = .empty ∧ tfind up.flt.active 1341 = none := by decide

/-- ContactWatchClassesOfR371: Contact Watch starts, and a scan of 512 values runs. -/
theorem test_contact_watch :
    (let s := { up with pwr := { up.pwr with pstate := .ready }, top := { up.top with mirrorDone := true } }
     s.top.cwRun = false ∧ s.cwBegin.top.cwRun = true) ∧
    (let s := { up with top := { up.top with cwRun := true } }
     s.top.cwRun = true ∧ s.clk.pllLock = true) := by decide

theorem test_scan_codes :
    (List.replicate 512 (List.replicate 64 (0 : BitVec 18))).length = 512 ∧
    ((List.replicate 512 (List.replicate 64 (0 : BitVec 18))).getD 511 []).length = 64 := by decide +kernel

/-- The bounds of R371: −0.9 V is CONTACT, −1.2 V and −0.1 V are UNSETTLED, what lies past them OPEN and SHORT. -/
theorem test_cw_bounds :
    cwClassOf 0xBF666666 = 2 ∧ cwClassOf 0xBE4CCCCD = 2 ∧ cwClassOf 0xBF99999A = 0 ∧ cwClassOf 0xBF99999B = 1 ∧
    cwClassOf 0xBDCCCCCD = 0 ∧ cwClassOf 0xBDCCCCCC = 3 := by decide +kernel

/-- KeyCommandsRefusedByR377 and InputsArmAndKeySlotsChange: each case alone, and an accepted write of each. -/
theorem test_keys :
    up.takesWrite .mspi 0x9004 = true ∧ up.secCode true false 2 = 0 ∧ up.secCode true false 0 = 2 ∧ up.secCode true false 3 = 2 ∧
    up.secCode true true 1 = 4 ∧ up.secCode false true 1 = 1 ∧
    ({ up with sec := { up.sec with busy := true } } : State).secCode true false 1 = 3 ∧
    ({ up with sec := { up.sec with slots := [(1, { state := 1 })] } } : State).secCode false true 1 = 0 ∧
    ({ up with sec := { up.sec with busy := true } } : State).sec.busy = true ∧ bit (0x80000001 : Word) 31 = true ∧
    bit (0x40000001 : Word) 30 = true ∧ up.pwr.dieUp = true ∧ up.top.inArmed.getLsbD 3 = false ∧ up.met.running = true := by
  decide

/-- BoundaryScanAndUnlock: a device free to hold, and a held one. -/
theorem test_jtag :
    up.top.jtagHold = false ∧ up.top.porstLow = false ∧
    (let s := { State.reset with top := { State.reset.top with phase := .up, jtagHold := true } }
     s.top.jtagHold = true ∧ s.top.resetLow = false ∧ s.top.porstLow = false ∧ s.top.phase = .up ∧ s.pwr.pstate = .aon ∧
     Claims.noFatal s = true) := by decide

/-! ## Registers -/

/-- A port whose link is up, with an image in force that gives bench 63 to port 1. -/
def portState : State :=
  { up with
    ports := [(0, { linkUp := true }), (1, { linkUp := true })]
    img := { up.img with activeValid := true }
    readers := [(0, { winSel := 63 })]
    partPort := [(2, 1)]
    gangs := [(1, { cfg := { benches := [63], bw := 1, partition := 2 } })] }

/-- TimeSnapshotOfR301 and RegistersReadAndWrite: accesses that are served, refused, denied, held and shown. -/
theorem test_registers :
    portState.canReach (.port 0) = true ∧ (∀ k, k < 6 → (portState.reader 0).tag ≠ some (0x4000 + 4 * k)) ∧
    portState.takesWrite (.port 0) 0x2010 = true ∧ portState.takesWrite (.port 0) 0x4050 = true ∧
    portState.takesWrite (.port 1) 0xA4 = true ∧ portState.takesWrite .mspi 0 = true ∧
    portState.implemented (.port 0) 0x20 = false ∧ portState.served 0x2010 = true ∧
    portState.implemented (.port 1) 0x2010 = true ∧ portState.allows (.port 1) (portState.right 0x2010) = false ∧
    portState.right 0x2010 = .admin := by decide

theorem test_reads :
    portState.served 0x3030 = true ∧ pairLo 0x3030 = true ∧ portState.img.stg ≠ .committing ∧
    (portState.reader 0).tag ≠ some 0x3030 ∧ portState.powered = true ∧
    portState.benchOwner 63 = some 1 ∧ portState.met.mirrorBad = false ∧
    (0x47FFFC : BitVec 24).toNat = 0x400004 + 8 * 65535 ∧ (0x4FFFFC : BitVec 24).toNat = 0x480000 + 32 * 16383 + 4 * 7 ∧
    (0x6041C4 : BitVec 24).toNat = 0x500000 + 128 * 8323 + 4 * 17 := by decide

/-- A writer that reaches nothing, an unmapped word outside the MON block, a right of a present port. -/
theorem test_write_paths :
    (State.reset.canReach (.port 0) = false ∧ portState.served 0x20 = true ∧ portState.implemented (.port 0) 0x20 = false) ∧
    (0x20 < 0xB000) ∧ portState.absent 0x2010 = false ∧
    (let s := { portState with top := { portState.top with bifStrap := 2 } }
     s.absent 0x6400 = true ∧ s.served 0x6400 = true ∧ s.implemented (.port 0) 0x6400 = true) ∧
    (portState.takesWrite .mspi 0 = true) := by decide

theorem test_pair_low : portState.regRead (.port 0) 0x3030 = (some 0, portState) := rfl
theorem test_pair_high : portState.regRead (.port 0) 0x3034 = (some 0, portState) := rfl

/-- SealStoreWrittenByCloseOnly: a command that answers a next state. -/
theorem test_seal : ∃ t, exec .refclkReturn State.reset = .next t := ⟨_, rfl⟩

end Sys2Proof.Tests
end

/-! ## Every command goes on (log 2) -/

namespace Sys2Proof

open Machine

/-- Settles O2: the meaning of each command is a next state. -/
theorem everyCommandGoesOn : Obligations.EveryCommandGoesOn := by
  intro c s
  cases c <;> rfl

end Sys2Proof

/-! ## The ports: flags of a refused access and its notice (R265, R275, R278) -/

namespace Sys2Proof.Machine

/-- Nothing but the ports changes from s to t. -/
def State.PortsOnly (s t : State) : Prop := ∃ ps, t = { s with ports := ps }

theorem State.PortsOnly.eq {s t : State} (h : s.PortsOnly t) : t = { s with ports := t.ports } := by
  obtain ⟨ps, rfl⟩ := h
  rfl

theorem State.PortsOnly.refl (s : State) : s.PortsOnly s := ⟨s.ports, rfl⟩

theorem State.PortsOnly.trans {s t u : State} (h : s.PortsOnly t) (k : t.PortsOnly u) : s.PortsOnly u := by
  obtain ⟨ps, rfl⟩ := h
  obtain ⟨qs, rfl⟩ := k
  exact ⟨qs, rfl⟩

theorem State.modPort_portsOnly (p : Nat) (f : Port → Port) (s : State) : s.PortsOnly (s.modPort p f) := ⟨_, rfl⟩

theorem State.portStatus_portsOnly (p : Nat) (f : Port → Port) (s : State) : s.PortsOnly (s.portStatus p f) := by
  unfold State.portStatus
  dsimp only
  split
  · exact s.modPort_portsOnly p f
  · exact (s.modPort_portsOnly p f).trans (State.modPort_portsOnly ..)

theorem State.notice_portsOnly (p ty src tick detail : Nat) (s : State) : s.PortsOnly (s.notice p ty src tick detail) := by
  unfold State.notice
  dsimp only
  split
  · exact .refl s
  split
  · exact s.modPort_portsOnly ..
  split
  · exact s.modPort_portsOnly ..
  · exact ((s.modPort_portsOnly ..).trans (State.modPort_portsOnly ..)).trans (State.modPort_portsOnly ..)

theorem State.unmapped_portsOnly (p : Nat) (s : State) : s.PortsOnly (s.unmapped p) := s.portStatus_portsOnly ..

theorem State.violate_portsOnly (p a : Nat) (s : State) : s.PortsOnly (s.violate p a) :=
  ((s.modPort_portsOnly ..).trans (State.portStatus_portsOnly ..)).trans (State.notice_portsOnly ..)

/-- A change of TOP_PORT_STATUS acts on its port, whose message counts alone may change besides. -/
theorem State.portStatus_port (p : Nat) (f : Port → Port) (s : State) :
    ∃ m, (s.portStatus p f).port p = { f (s.port p) with msix := m } := by
  unfold State.portStatus
  dsimp only
  split
  · exact ⟨_, State.modPort_port ..⟩
  · exact ⟨_, by unfold State.msix; rw [State.modPort_port, State.modPort_port]⟩

/-- The part of a port that TOP_PORT_STATUS and TOP_PORT_VIOL_ADDR tell of a violation. -/
def Port.violation (x : Port) : Bool × BitVec 64 := (x.partViol, x.violAddr)

/-- A change that leaves that part of every port leaves it in each port. -/
theorem State.modPort_violation (q : Nat) {f : Port → Port} (s : State) (p : Nat) (h : ∀ x, (f x).violation = x.violation) :
    ((s.modPort q f).port p).violation = (s.port p).violation := by
  by_cases e : q = p
  · subst e
    rw [State.modPort_port, h]
  · rw [State.modPort_port_other _ _ e]

theorem State.msix_violation (q v : Nat) (s : State) (p : Nat) : ((s.msix q v).port p).violation = (s.port p).violation :=
  State.modPort_violation q s p fun _ => rfl

theorem State.hostWrite_violation (q a : Nat) (bs : List Byte) (s : State) (p : Nat) :
    ((s.hostWrite q a bs).port p).violation = (s.port p).violation :=
  State.modPort_violation q s p fun _ => rfl

theorem State.notice_violation (q ty src tick detail : Nat) (s : State) (p : Nat) :
    ((s.notice q ty src tick detail).port p).violation = (s.port p).violation := by
  unfold State.notice
  dsimp only
  split
  · rfl
  split
  · exact State.modPort_violation _ s p fun _ => rfl
  split
  · exact State.modPort_violation _ s p fun _ => rfl
  · rw [State.msix_violation, State.modPort_violation, State.hostWrite_violation]
    exact fun _ => rfl

theorem State.violate_violation (p a : Nat) (s : State) : ((s.violate p a).port p).violation = (true, BitVec.ofNat 64 a) := by
  unfold State.violate State.noticeAdmin
  rw [State.notice_violation]
  obtain ⟨m, h⟩ := State.portStatus_port p (fun x => { x with partViol := true })
    (s.modPort p fun x => { x with violAddr := BitVec.ofNat 64 a })
  rw [h, State.modPort_port]
  rfl

theorem State.unmapped_flags (p : Nat) (s : State) :
    ((s.unmapped p).port p).unmapped = true ∧ ((s.unmapped p).port p).partViol = (s.port p).partViol := by
  obtain ⟨m, h⟩ := s.portStatus_port p fun x => { x with unmapped := true }
  unfold State.unmapped
  rw [h]
  exact ⟨rfl, rfl⟩

/-! ## Register writes (R9, R265, R277, R278, R387) -/

theorem exec_registerWrite (w : Who) (a : BitVec 24) (v : Word) (full : Bool) (s : State) :
    exec (.registerWrite w a v full) s = .next (s.busWriteBytes w a.toNat v full) := rfl

/-- MSPI restricted to read-only may write nothing (R287). -/
theorem State.allows_of_rdonly {s : State} {w : Who} (h : w = .mspi ∧ s.spim.rdonly = true) (r : Right) :
    s.allows w r = false := by
  obtain ⟨rfl, h⟩ := h
  simp [State.allows, h]

theorem State.busWriteBytes_of_takesWrite {s : State} {w : Who} {a : Nat} (h : s.takesWrite w a = true) (v : Word) :
    s.busWriteBytes w a v true = s.regWrite w a v := by
  simp only [State.takesWrite, Bool.and_eq_true, Bool.not_eq_true'] at h
  obtain ⟨⟨⟨⟨⟨hreach, hserved⟩, himpl⟩, hallows⟩, hcommit⟩, habsent⟩ := h
  have hrd : ¬ (w = .mspi ∧ s.spim.rdonly = true) := fun hr => by simp [State.allows_of_rdonly hr] at hallows
  have hword : s.writeWord w a v = s.regWrite w a v := by
    simp [State.writeWord, hrd, hserved, himpl, habsent, hallows, hcommit]
  cases w <;> simp [State.busWriteBytes, State.busWrite, hreach, hword]

/-- A write that reaches a port's or MSPI's register has the effect of the register. -/
theorem exec_registerWrite_of_takesWrite {s : State} {w : Who} {a : BitVec 24} {n : Nat}
    (h : s.takesWrite w n = true) (v : Word) (ha : a.toNat = n) :
    exec (.registerWrite w a v true) s = .next (s.regWrite w n v) := by
  rw [exec_registerWrite, ha, State.busWriteBytes_of_takesWrite h]

theorem State.busWriteBytes_of_not_reach {s : State} {w : Who} (h : s.canReach w = false) (a : Nat) (v : Word) (full : Bool) :
    s.busWriteBytes w a v full = s := by
  cases w <;> simp [State.busWriteBytes, State.busWrite, h]

theorem State.busWriteBytes_partial {s : State} {p : PortIx} (h : s.canReach (.port p) = true) (a : Nat) (v : Word) :
    s.busWriteBytes (.port p) a v false = s.portStatus p fun x => { x with badSize := true } := by
  simp [State.busWriteBytes, h]

theorem State.busWriteBytes_port_full {s : State} {p : PortIx} (h : s.canReach (.port p) = true) (a : Nat) (v : Word) :
    s.busWriteBytes (.port p) a v true = s.writeWord (.port p) a v := by
  simp [State.busWriteBytes, State.busWrite, h]

theorem State.writeWord_port_unmapped {s : State} {p : PortIx} {a : Nat} (hmon : a < 0xB000 ∨ 0xC000 ≤ a)
    (h : s.served a = false ∨ s.implemented (.port p) a = false) (v : Word) :
    s.writeWord (.port p) a v = s.unmapped p := by
  have hblock : ¬ (0xB000 ≤ a ∧ a < 0xC000) := by omega
  unfold State.writeWord
  cases hserved : s.served a with
  | false => simp [State.sayOffline, hserved]
  | true =>
    have himpl : s.implemented (.port p) a = false := h.resolve_left (by simp [hserved])
    simp [State.sayUnmapped, hserved, himpl, ← and_assoc, hblock]

section
variable {s : State} {p : PortIx} {a : Nat} (hserved : s.served a = true) (himpl : s.implemented (.port p) a = true)
include hserved himpl

theorem State.writeWord_port_absent (h : s.absent a = true) (v : Word) : s.writeWord (.port p) a v = s := by
  simp [State.writeWord, hserved, himpl, h]

theorem State.writeWord_port_denied (habsent : s.absent a = false) (h : s.allows (.port p) (s.right a) = false) (v : Word) :
    s.writeWord (.port p) a v = s.violate p a := by
  simp [State.writeWord, State.denied, hserved, himpl, habsent, h]

end

/-- An address past a group of registers is none of them. -/
theorem ix_eq_none {a base stride n : Nat} (hstride : 0 < stride) (h : base + stride * n ≤ a) : ix a base stride n = none := by
  have hn : n ≤ (a - base) / stride := (Nat.le_div_iff_mul_le hstride).2 (by rw [Nat.mul_comm]; omega)
  simp [ix, Nat.not_lt.2 hn]

theorem ix_of_index {base stride n k : Nat} (hstride : 0 < stride) (hk : k < n) :
    ix (base + stride * k) base stride n = some k := by
  simp [ix, hk, hstride]

/-- PWR_WAKE_NS takes its 30 writable bits (R332). -/
theorem State.regWrite_wakeNs (w : Who) (v : Word) (s : State) :
    s.regWrite w 0x2010 v = s.modPwr fun p => { p with wakeNs := v.extractLsb' 0 30 } := by
  simp [State.regWrite, State.pwrWrite]

/-- TIME_PRI_PORT takes its 16 writable bits (R303). -/
theorem State.regWrite_priPort (w : Who) (v : Word) (s : State) :
    s.regWrite w 0x4050 v = s.modTime fun t => { t with priPort := v.extractLsb' 0 16 } := by
  simp [State.regWrite, State.timeWrite]

/-- The identification word at address 0 discards a write (R9). -/
theorem State.regWrite_ident (w : Who) (v : Word) (s : State) : s.regWrite w 0 v = s := by
  simp [State.regWrite, State.topWrite, ix]

/-- A write of a port's own window select. -/
theorem State.regWrite_winSel (w : Who) (p : PortIx) (v : Word) (s : State) :
    s.regWrite w (0xA0 + 4 * p.val) v = s.modReader p fun h => { h with winSel := fld v 0 6 } := by
  have hstatus : ix (0xA0 + 4 * p.val) 0x40 4 4 = none := ix_eq_none (by omega) (by omega)
  have hsel : ix (0xA0 + 4 * p.val) 0xA0 4 5 = some p.val := ix_of_index (by decide) (by omega)
  have hlow : 0xA0 + 4 * p.val < 0x1000 := by omega
  have hplain : 0xA0 + 4 * p.val ≠ 0x80 ∧ 0xA0 + 4 * p.val ≠ 0x84 ∧ 0xA0 + 4 * p.val ≠ 0x88 := by omega
  simp only [State.regWrite, State.topWrite, hlow, hplain, hstatus, hsel, if_true, if_false]

/-! ## Register reads (R9, R11, R391) -/

theorem exec_counterSnapshotRead (w : Who) (a : BitVec 24) (s : State) :
    exec (.counterSnapshotRead w a) s = .next (s.busRead w a.toNat) := rfl

theorem exec_storeWindowRead (w : Who) (a : BitVec 24) (s : State) :
    exec (.storeWindowRead w a) s = .next (s.busRead w a.toNat) := rfl

theorem tput_tput {α : Type} (t : Tab α) (i : Nat) (v u : α) : tput (tput t i v) i u = tput t i u := by
  induction t with
  | nil => simp [tput]
  | cons x r ih =>
    obtain ⟨k, y⟩ := x
    rcases Nat.lt_trichotomy i k with h | h | h
    · simp [tput, h, Nat.ne_of_gt h]
    · simp [tput, h]
    · simp [tput, Nat.ne_of_lt h, Nat.not_lt.2 (Nat.le_of_lt h), ih]

theorem State.modReader_modReader (i : Nat) (f g : Reader → Reader) (s : State) :
    (s.modReader i f).modReader i g = s.modReader i fun h => g (f h) := by
  simp [State.modReader, tmod, tput_tput]

/-- A change of a reader's registers by what they hold is a change to what they become. -/
theorem State.modReader_congr {i : Nat} {f g : Reader → Reader} {s : State} (h : f (s.reader i) = g (s.reader i)) :
    s.modReader i f = s.modReader i g := by
  have hreader : f (tget {} s.readers i) = g (tget {} s.readers i) := h
  unfold State.modReader tmod
  rw [hreader]

/-- A read returns its word in the reader's registers, on the state that the read leaves. -/
theorem State.busRead_of_readWord {s t : State} {w : Who} {a : Nat} {v : Word} (hreach : s.canReach w = true)
    (h : s.readWord w a = (v, t)) : s.busRead w a = t.modReader (whoIx w) fun r => { r with data := v } := by
  simp [State.busRead, hreach, h]

theorem State.regSeen_of_not_committing {s : State} (h : s.img.stg ≠ .committing) (w : Who) (a : Nat) :
    s.regSeen w a = s.regRead w a := by
  simp [State.regSeen, h]

theorem State.readWord_held {s : State} {w : Who} {a : Nat} (hserved : s.served a = true)
    (htag : (s.reader (whoIx w)).tag = some a) : s.readWord w a = ((s.reader (whoIx w)).hold, s) := by
  simp [State.readWord, hserved, htag]

theorem pairLo_timeNs : pairLo 0x4000 = false := by decide

section
variable {s : State} {w : Who} {a : Nat} (hserved : s.served a = true) (hstg : s.img.stg ≠ .committing)
  (htag : (s.reader (whoIx w)).tag ≠ some a)
include hserved hstg htag

theorem State.readWord_plain {t : State} {v : Word} (htime : a ≠ 0x4000) (hpair : pairLo a = false)
    (h : s.regRead w a = (some v, t)) : s.readWord w a = (v, t) := by
  simp [State.readWord, hserved, htag, State.regSeen_of_not_committing hstg, h, htime, hpair]

theorem State.readWord_pair {lo hi : Word} (hpair : pairLo a = true) (h : s.regRead w a = (some lo, s))
    (k : s.regRead w (a + 4) = (some hi, s)) :
    s.readWord w a = (lo, s.modReader (whoIx w) fun r => { r with hold := hi, tag := some (a + 4) }) := by
  have htime : a ≠ 0x4000 := fun e => by simp [e, pairLo_timeNs] at hpair
  simp [State.readWord, hserved, htag, State.regSeen_of_not_committing hstg, h, k, htime, hpair]

end

theorem State.readWord_port_unmapped {s : State} {p : PortIx} {a : Nat} (hstg : s.img.stg ≠ .committing)
    (htag : (s.reader p).tag ≠ some a) (h : s.served a = false ∨ s.regRead (.port p) a = (none, s)) :
    s.readWord (.port p) a = (0, s.unmapped p) := by
  cases hserved : s.served a with
  | false => simp [State.readWord, State.sayOffline, hserved]
  | true =>
    have hread : s.regRead (.port p) a = (none, s) := h.resolve_left (by simp [hserved])
    simp [State.readWord, State.sayUnmapped, whoIx, hserved, htag, State.regSeen_of_not_committing hstg, hread]

/-! ## The windows (R393, R394) -/

theorem pairLo_window {a : Nat} (h : 0x400000 ≤ a) : pairLo a = false := by
  have hbench : ¬ (0x100000 ≤ a ∧ a < 0x140000) := by omega
  have hacq : ¬ (0x10000 ≤ a ∧ a < 0x20000) := by omega
  have hrae : ¬ (0x20000 ≤ a ∧ a < 0x30000) := by omega
  simp (disch := omega) only [pairLo, hbench, hacq, hrae, if_false, ix_eq_none, Option.isSome_none, Bool.or_false,
    List.contains_eq_mem, List.mem_cons, List.not_mem_nil, or_false, decide_eq_false_iff_not]
  omega

theorem State.served_of_powered {s : State} (h : s.powered = true) (a : Nat) : s.served a = true := by
  simp [State.served, h]

theorem State.regRead_window {a : Nat} (h4 : a % 4 = 0) (hlo : 0x400000 ≤ a) (hhi : a < 0x800000) (w : Who) (s : State) :
    s.regRead w a = s.winRead w a := by
  simp [State.regRead, winBase, h4, hlo, hhi]

/-- The store window shows bench b to w: always to MSPI, and to a port every bench before the first commit and then those
of its own partitions (R393). -/
def State.windowShows (s : State) (b : Nat) : Who → Bool
  | .mspi => true
  | .port p => !s.img.activeValid || s.benchOwner b == some p.val

section
variable {s : State} {w : Who} {a : Nat} (hstg : s.img.stg ≠ .committing) (hhi : a < 0x500000)
include hstg hhi

theorem State.winRead_store (h : s.windowShows (s.reader (whoIx w)).winSel w = true) :
    s.winRead w a = (some ((s.bench (s.reader (whoIx w)).winSel).storeWord (a - 0x400000)), s) := by
  have hend : ¬ winEnd ≤ a := by simp only [winEnd]; omega
  have hmirror : ¬ 0x500000 ≤ a := Nat.not_le.2 hhi
  cases w with
  | mspi => simp [State.winRead, hend, hmirror, hstg, winBase]
  | port p =>
    have hown : ¬ (s.img.activeValid = true ∧ s.benchOwner (s.reader p).winSel ≠ some p.val) := by
      rintro ⟨hvalid, hother⟩
      simp [State.windowShows, whoIx, hvalid, hother] at h
    simp [State.winRead, hend, hmirror, hstg, winBase, whoIx, hown]

theorem State.winRead_foreign {p : PortIx} (h : s.windowShows (s.reader p).winSel (.port p) = false) :
    s.winRead (.port p) a = (some 0, s.violate p a) := by
  have hend : ¬ winEnd ≤ a := by simp only [winEnd]; omega
  have hmirror : ¬ 0x500000 ≤ a := Nat.not_le.2 hhi
  have hown : s.img.activeValid = true ∧ s.benchOwner (s.reader p).winSel ≠ some p.val := by
    simpa [State.windowShows] using h
  simp [State.winRead, hend, hmirror, hstg, whoIx, hown]

end

theorem State.mirrorRead_word {s : State} (hbad : s.met.mirrorBad = false) {i : Nat} (hi : i < 18) (k : Nat) :
    s.mirrorRead (128 * k + 4 * i) = (s.mirrorWord (32 * k + i), s) := by
  have htable : (128 * k + 4 * i) / 128 = k := by omega
  have hword : (128 * k + 4 * i) % 128 / 4 = i := by omega
  simp only [State.mirrorRead, htable, hword, Nat.not_le.2 hi, hbad, if_false, Bool.not_false, if_true]

theorem State.winRead_mirror {s t : State} {a : Nat} {v : Word} (hlo : 0x500000 ≤ a) (hend : a < winEnd) (w : Who)
    (h : s.mirrorRead (a - 0x500000) = (v, t)) : s.winRead w a = (some v, t) := by
  unfold State.winRead
  rw [if_neg (Nat.not_le.2 hend), if_pos hlo, h]

theorem Bench.storeWord_micro_lo (x : Bench) {n : Nat} (h : n < 65536) :
    x.storeWord (8 * n) = (tget 0 x.micro n : BitVec 48).extractLsb' 0 32 := by
  have hlt : 8 * n < 0x80000 := by omega
  simp [Bench.storeWord, hlt]

theorem Bench.storeWord_micro_hi (x : Bench) {n : Nat} (h : n < 65536) :
    x.storeWord (8 * n + 4) = ((tget 0 x.micro n : BitVec 48).extractLsb' 32 16).setWidth 32 := by
  have hlt : 8 * n + 4 < 0x80000 := by omega
  have hdiv : (8 * n + 4) / 8 = n := by omega
  have hmod : (8 * n + 4) % 8 ≠ 0 := by omega
  simp only [Bench.storeWord, hlt, hdiv, hmod, if_true, if_false]
  generalize (tget 0 x.micro n : BitVec 48) = m
  apply BitVec.eq_of_toNat_eq
  simp only [wd, BitVec.toNat_ofNat, BitVec.toNat_setWidth, BitVec.extractLsb'_toNat, Nat.shiftRight_eq_div_pow]
  omega

theorem Bench.storeWord_nano (x : Bench) {n i : Nat} (hi : i < 8) :
    x.storeWord (0x80000 + 32 * n + 4 * i) = (tget 0 x.nano n : BitVec 256).extractLsb' (32 * i) 32 := by
  have hge : ¬ 0x80000 + 32 * n + 4 * i < 0x80000 := by omega
  have hdiv : (0x80000 + 32 * n + 4 * i - 0x80000) / 32 = n := by omega
  have hmod : (0x80000 + 32 * n + 4 * i - 0x80000) % 32 / 4 = i := by omega
  simp only [Bench.storeWord, hge, hdiv, hmod, if_false]
  apply BitVec.eq_of_toNat_eq
  simp [wordOf, wd, Nat.shiftRight_eq_div_pow]

/-! ## What the store window returns -/

section
variable {s t : State} {w : Who} {a : BitVec 24} {v : Word} (hreach : s.canReach w = true) (hpow : s.powered = true)
  (hstg : s.img.stg ≠ .committing) (htag : (s.reader (whoIx w)).tag ≠ some a.toNat) (h4 : a.toNat % 4 = 0)
  (hlo : 0x400000 ≤ a.toNat) (hhi : a.toNat < winEnd)
include hreach hpow hstg htag h4 hlo hhi

/-- A read in the windows returns what the window shows. -/
theorem State.busRead_window (h : s.winRead w a.toNat = (some v, t)) :
    s.busRead w a.toNat = t.modReader (whoIx w) fun r => { r with data := v } := by
  have hmap : a.toNat < 0x800000 := Nat.lt_trans hhi (by decide)
  have htime : a.toNat ≠ 0x4000 := by omega
  exact State.busRead_of_readWord hreach (State.readWord_plain (State.served_of_powered hpow _) hstg htag htime
    (pairLo_window hlo) ((State.regRead_window h4 hlo hmap w s).trans h))

/-- A window's word is shown with nothing but its reader's registers changed. -/
theorem storeWindowRead_shows (h : s.winRead w a.toNat = (some v, s)) :
    Goes (exec (.storeWindowRead w a) s) fun t => t = { s with readers := t.readers } ∧ (t.reader (whoIx w)).data = v := by
  rw [exec_storeWindowRead, State.busRead_window hreach hpow hstg htag h4 hlo hhi h]
  exact ⟨_, rfl, rfl, by rw [State.modReader_reader]⟩

end

section
variable {s : State} {w : Who} {a : BitVec 24} (hreach : s.canReach w = true) (hpow : s.powered = true)
  (hstg : s.img.stg ≠ .committing) (htag : (s.reader (whoIx w)).tag ≠ some a.toNat)
include hreach hpow hstg htag

/-- A word of a bench that the store window shows to its reader. -/
theorem storeWindowRead_store (hshows : s.windowShows (s.reader (whoIx w)).winSel w = true) {o : Nat}
    (ha : a.toNat = 0x400000 + o) (h4 : o % 4 = 0) (ho : o < 0x100000) :
    Goes (exec (.storeWindowRead w a) s) fun t => t = { s with readers := t.readers } ∧
      (t.reader (whoIx w)).data = (s.bench (s.reader (whoIx w)).winSel).storeWord o := by
  refine storeWindowRead_shows hreach hpow hstg htag (by omega) (by omega) (by simp only [winEnd]; omega) ?_
  rw [State.winRead_store hstg (by omega) hshows, ha, Nat.add_sub_cancel_left]

theorem storeWindowRead_mirror {k i : Nat} (hk : k < 8324) (hi : i < 18) (ha : a.toNat = 0x500000 + 128 * k + 4 * i)
    (hbad : s.met.mirrorBad = false) :
    Goes (exec (.storeWindowRead w a) s) fun t => t = { s with readers := t.readers } ∧
      (t.reader (whoIx w)).data = s.mirrorWord (32 * k + i) := by
  have hend : a.toNat < winEnd := by simp only [winEnd]; omega
  refine storeWindowRead_shows hreach hpow hstg htag (by omega) (by omega) hend ?_
  refine State.winRead_mirror (by omega) hend w ?_
  rw [ha, Nat.add_assoc, Nat.add_sub_cancel_left, State.mirrorRead_word hbad hi]

end

/-- A port is shown nothing of a bench of another partition, and is told of the violation (R278, R393). -/
theorem storeWindowRead_foreign {s : State} {p : PortIx} {a : BitVec 24} (hreach : s.canReach (.port p) = true)
    (hpow : s.powered = true) (hstg : s.img.stg ≠ .committing) (htag : (s.reader p).tag ≠ some a.toNat)
    (hforeign : s.windowShows (s.reader p).winSel (.port p) = false) (hlo : 0x400000 ≤ a.toNat)
    (hhi : a.toNat < 0x500000) (h4 : a.toNat % 4 = 0) :
    Goes (exec (.storeWindowRead (.port p) a) s) fun t => (t.reader p).data = 0 ∧ (t.port p).partViol = true := by
  rw [exec_storeWindowRead, State.busRead_window hreach hpow hstg htag h4 hlo (Nat.lt_trans hhi (by decide))
    (State.winRead_foreign hstg hhi hforeign)]
  exact ⟨_, rfl, congrArg Reader.data (State.modReader_reader ..), congrArg Prod.fst (s.violate_violation p a.toNat)⟩

/-! ## The accesses of a port that are reported (R265, R278) -/

/-- A write with other byte enables is discarded with BADSIZE alone. -/
theorem registerWrite_partial {s : State} {p : PortIx} (hreach : s.canReach (.port p) = true) (a : BitVec 24) (v : Word) :
    Goes (exec (.registerWrite (.port p) a v false) s) fun t => t = { s with ports := t.ports } ∧
      (t.port p).badSize = true ∧ (t.port p).partViol = (s.port p).partViol := by
  rw [exec_registerWrite, State.busWriteBytes_partial hreach]
  obtain ⟨m, hport⟩ := s.portStatus_port p fun x => { x with badSize := true }
  refine ⟨_, rfl, (s.portStatus_portsOnly ..).eq, ?_⟩
  rw [hport]
  exact ⟨rfl, rfl⟩

theorem registerWrite_unmapped {s : State} {p : PortIx} {a : BitVec 24} (hreach : s.canReach (.port p) = true)
    (hmon : a.toNat < 0xB000 ∨ 0xC000 ≤ a.toNat) (h : s.served a.toNat = false ∨ s.implemented (.port p) a.toNat = false)
    (v : Word) :
    Goes (exec (.registerWrite (.port p) a v true) s) fun t => t = { s with ports := t.ports } ∧
      (t.port p).unmapped = true ∧ (t.port p).partViol = (s.port p).partViol := by
  rw [exec_registerWrite, State.busWriteBytes_port_full hreach, State.writeWord_port_unmapped hmon h]
  exact ⟨_, rfl, (s.unmapped_portsOnly p).eq, s.unmapped_flags p⟩

theorem registerWrite_denied {s : State} {p : PortIx} {a : BitVec 24} (hreach : s.canReach (.port p) = true)
    (hserved : s.served a.toNat = true) (himpl : s.implemented (.port p) a.toNat = true)
    (hdenied : s.allows (.port p) (s.right a.toNat) = false) (habsent : s.absent a.toNat = false) (v : Word) :
    Goes (exec (.registerWrite (.port p) a v true) s) fun t => t = { s with ports := t.ports } ∧
      (t.port p).partViol = true ∧ (t.port p).violAddr = BitVec.ofNat 64 a.toNat := by
  rw [exec_registerWrite, State.busWriteBytes_port_full hreach, State.writeWord_port_denied hserved himpl habsent hdenied]
  exact ⟨_, rfl, (s.violate_portsOnly p a.toNat).eq, Prod.mk.inj (s.violate_violation p a.toNat)⟩

/-- A register of an absent port discards a write. -/
theorem registerWrite_absent {s : State} {p : PortIx} {a : BitVec 24} (hserved : s.served a.toNat = true)
    (himpl : s.implemented (.port p) a.toNat = true) (habsent : s.absent a.toNat = true) (v : Word) :
    exec (.registerWrite (.port p) a v true) s = .next s := by
  rw [exec_registerWrite]
  cases hreach : s.canReach (.port p) with
  | false => rw [State.busWriteBytes_of_not_reach hreach]
  | true => rw [State.busWriteBytes_port_full hreach, State.writeWord_port_absent hserved himpl habsent]

/-- A read where nothing is implemented returns 0 with UNMAPPED. -/
theorem counterSnapshotRead_unmapped {s : State} {p : PortIx} {a : BitVec 24} (hreach : s.canReach (.port p) = true)
    (htag : (s.reader p).tag ≠ some a.toNat) (hstg : s.img.stg ≠ .committing)
    (h : s.served a.toNat = false ∨ s.regRead (.port p) a.toNat = (none, s)) :
    Goes (exec (.counterSnapshotRead (.port p) a) s) fun t => t = { s with ports := t.ports, readers := t.readers } ∧
      (t.reader p).data = 0 ∧ (t.port p).unmapped = true := by
  rw [exec_counterSnapshotRead, State.busRead_of_readWord hreach (State.readWord_port_unmapped hstg htag h)]
  refine ⟨_, rfl, ?_, congrArg Reader.data (State.modReader_reader ..), (s.unmapped_flags p).1⟩
  obtain ⟨ps, hports⟩ := s.unmapped_portsOnly p
  rw [hports]
  rfl

/-! ## The reads that hold and return a pair's high word (R391) -/

theorem counterSnapshotRead_pair {s : State} {w : Who} {a : BitVec 24} {lo hi : Word} (hreach : s.canReach w = true)
    (hserved : s.served a.toNat = true) (hpair : pairLo a.toNat = true) (hstg : s.img.stg ≠ .committing)
    (htag : (s.reader (whoIx w)).tag ≠ some a.toNat) (hlo : s.regRead w a.toNat = (some lo, s))
    (hhi : s.regRead w (a.toNat + 4) = (some hi, s)) :
    exec (.counterSnapshotRead w a) s = .next (s.modReader (whoIx w) fun h => { h with
      hold := hi, tag := some (a.toNat + 4), data := lo }) := by
  rw [exec_counterSnapshotRead, State.busRead_of_readWord hreach (State.readWord_pair hserved hstg htag hpair hlo hhi),
    State.modReader_modReader]

theorem counterSnapshotRead_held {s : State} {w : Who} {a : BitVec 24} (hreach : s.canReach w = true)
    (hserved : s.served a.toNat = true) (htag : (s.reader (whoIx w)).tag = some a.toNat) :
    exec (.counterSnapshotRead w a) s = .next (s.modReader (whoIx w) fun h => { h with data := h.hold }) := by
  rw [exec_counterSnapshotRead, State.busRead_of_readWord hreach (State.readWord_held hserved htag)]
  exact congrArg _ (State.modReader_congr rfl)

end Sys2Proof.Machine

namespace Sys2Proof

open Machine

/-- Settles O59, by the branches of a write (reach, byte enables, served, implemented, present, rights) and of a read
(held word, pair, window). -/
theorem registersReadAndWrite : Obligations.RegistersReadAndWrite := by
  refine ⟨fun s w a v h => exec_registerWrite_of_takesWrite h v rfl, fun s w a v full h => ?unreached,
    fun s w v h => ?wakeNs, fun s w v h => ?priPort, fun s p a v ha h => ?winSel, fun s w v h => ?ident,
    fun s p a v h => registerWrite_partial h a v,
    fun s p a v hreach hmon h => registerWrite_unmapped hreach hmon h v,
    fun s p a v hreach hserved himpl hdenied habsent => registerWrite_denied hreach hserved himpl hdenied habsent v,
    fun s p a v hserved himpl habsent => registerWrite_absent hserved himpl habsent v,
    fun s t w a v hreach hserved hstg htag htime hpair h => ?plain, fun s p a => counterSnapshotRead_unmapped,
    fun s w a lo hi hreach hserved hpair hstg htag => counterSnapshotRead_pair hreach hserved hpair hstg htag,
    fun s w a => counterSnapshotRead_held, fun s w a hreach hpow hstg htag => ?window⟩
  case unreached => rw [exec_registerWrite, State.busWriteBytes_of_not_reach h]
  case wakeNs => exact (exec_registerWrite_of_takesWrite h v rfl).trans (congrArg _ (State.regWrite_wakeNs ..))
  case priPort => exact (exec_registerWrite_of_takesWrite h v rfl).trans (congrArg _ (State.regWrite_priPort ..))
  case winSel => rw [exec_registerWrite_of_takesWrite h v rfl, ha, State.regWrite_winSel]
  case ident => exact (exec_registerWrite_of_takesWrite h v rfl).trans (congrArg _ (State.regWrite_ident ..))
  case plain =>
    rw [exec_counterSnapshotRead,
      State.busRead_of_readWord hreach (State.readWord_plain hserved hstg htag htime hpair h)]
  case window =>
    refine ⟨fun hown n hn => ⟨fun ha => ?_, fun ha => ?_⟩, fun hown n i hn hi ha => ?_,
      fun k i hk hi ha hbad => storeWindowRead_mirror hreach hpow hstg htag hk hi ha hbad, fun p hw hown hlo hhi h4 => ?_⟩
    · rw [← Bench.storeWord_micro_lo _ hn]
      exact storeWindowRead_store hreach hpow hstg htag hown ha (by omega) (by omega)
    · rw [← Bench.storeWord_micro_hi _ hn]
      exact storeWindowRead_store hreach hpow hstg htag hown (by omega) (by omega) (by omega)
    · rw [← Bench.storeWord_nano _ hi]
      exact storeWindowRead_store hreach hpow hstg htag hown (by omega) (by omega) (by omega)
    · subst hw
      exact storeWindowRead_foreign hreach hpow hstg htag hown hlo hhi h4

end Sys2Proof

/-! ## The registers of a bench's block (R394) -/

namespace Sys2Proof.Machine

theorem benchAt_bounds (b : BenchIx) {o : Nat} (h : o < 0x1000) : 0x100000 ≤ benchAt b o ∧ benchAt b o < 0x140000 := by
  unfold benchAt
  omega

theorem benchAt_bench (b : BenchIx) {o : Nat} (h : o < 0x1000) : (benchAt b o - 0x100000) / 0x1000 = b := by
  unfold benchAt
  omega

theorem benchAt_offset (b : BenchIx) {o : Nat} (h : o < 0x1000) : benchAt b o % 0x1000 = o := by
  unfold benchAt
  omega

theorem benchAt_sub_offset (b : BenchIx) {o : Nat} (h : o < 0x1000) : (benchAt b o - 0x100000) % 0x1000 = o := by
  unfold benchAt
  omega

/-- A write from a port with all its bytes is a write of the whole word. -/
theorem State.busWriteBytes_full (w : Who) (a : Nat) (v : Word) (s : State) :
    s.busWriteBytes w a v true = s.busWrite w a v := by
  cases w <;> rfl

theorem State.busWrite_of_takesWrite {s : State} {w : Who} {a : Nat} (h : s.takesWrite w a = true) (v : Word) :
    s.busWrite w a v = s.regWrite w a v := by
  rw [← State.busWriteBytes_full, State.busWriteBytes_of_takesWrite h]

theorem State.regWrite_benchAt (w : Who) (b : BenchIx) {o : Nat} (ho : o < 0x1000) (v : Word) (s : State) :
    s.regWrite w (benchAt b o) v = s.benchWrite (whoIx w) b o v := by
  obtain ⟨hlo, hhi⟩ := benchAt_bounds b ho
  have hlater {n : Nat} (hn : n ≤ 0x100000) : ¬ benchAt b o < n := by omega
  simp [State.regWrite, hlater, hlo, hhi, benchAt_bench b ho, benchAt_sub_offset b ho]

/-- A write of a bench's register has the effect of the register. -/
theorem State.busWrite_benchAt {s : State} {w : Who} {b : BenchIx} {o : Nat} (ho : o < 0x1000)
    (h : s.takesWrite w (benchAt b o) = true) (v : Word) :
    s.busWrite w (benchAt b o) v = s.benchWrite (whoIx w) b o v := by
  rw [State.busWrite_of_takesWrite h, State.regWrite_benchAt w b ho]

/-- A read that is served at once returns the word of a register that is no half of a pair. -/
theorem State.busRead_of_readsNow {s t : State} {w : Who} {a : Nat} {v : Word} (h : Claims.readsNow s w a = true)
    (htime : a ≠ 0x4000) (hpair : pairLo a = false) (hread : s.regRead w a = (some v, t)) :
    s.busRead w a = t.modReader (whoIx w) fun r => { r with data := v } := by
  simp only [Claims.readsNow, State.takesRead, Bool.and_eq_true, bne_iff_ne, ne_eq] at h
  obtain ⟨⟨⟨hreach, hserved⟩, htag⟩, hstg⟩ := h
  exact State.busRead_of_readWord hreach (State.readWord_plain hserved hstg htag htime hpair hread)

/-! ## Judged changes (R318) -/

/-- The state with another tick since which GUY[0] has read high with agreement. -/
def State.highSince (s : State) (n : Option Nat) : State := s.modGuy fun g => { g with g0HighSince := n }

@[simp] theorem State.highSince_bench (n : Option Nat) (s : State) (k : Nat) : (s.highSince n).bench k = s.bench k := rfl

theorem State.settle_highSince (s : State) : ∃ n, s.settle = s.highSince n := by
  unfold State.settle
  split
  · exact ⟨s.guy.g0HighSince, rfl⟩
  · exact ⟨_, rfl⟩

/-- A judged change is the change, but for that tick before it and after it. -/
theorem State.judged_highSince (f : State → State) (s : State) :
    ∃ m n, s.judged f = (f (s.highSince m)).highSince n := by
  obtain ⟨m, hm⟩ := s.settle_highSince
  obtain ⟨n, hn⟩ := (f s.settle).settle_highSince
  exact ⟨m, n, by rw [State.judged, hn, hm]⟩

/-! ## Changes of benches -/

/-- Nothing but the benches changes from s to t. -/
def State.BenchesOnly (s t : State) : Prop := ∃ bs, t = { s with benches := bs }

theorem State.BenchesOnly.refl (s : State) : s.BenchesOnly s := ⟨s.benches, rfl⟩

theorem State.BenchesOnly.trans {s t u : State} (h : s.BenchesOnly t) (k : t.BenchesOnly u) : s.BenchesOnly u := by
  obtain ⟨bs, rfl⟩ := h
  obtain ⟨cs, rfl⟩ := k
  exact ⟨cs, rfl⟩

theorem State.modBench_benchesOnly (b : Nat) (f : Bench → Bench) (s : State) : s.BenchesOnly (s.modBench b f) :=
  ⟨_, rfl⟩

theorem State.BenchesOnly.upToAgreement {s t : State} {m n : Option Nat} (h : (s.highSince m).BenchesOnly t) :
    Claims.UpToAgreement { s with benches := (t.highSince n).benches } (t.highSince n) := by
  obtain ⟨bs, rfl⟩ := h
  rfl

theorem State.each_benchesOnly {f : Nat → State → State} (hf : ∀ (i : Nat) (s : State), s.BenchesOnly (f i s))
    (is : List Nat) (s : State) : s.BenchesOnly (s.each is f) := by
  induction is generalizing s with
  | nil => exact .refl s
  | cons i is ih => exact (hf i s).trans (ih (f i s))

/-- A change made in every bench of a list, which changes no bench further when made twice. -/
theorem State.each_modBench_bench {f : Bench → Bench} (hf : ∀ x, f (f x) = f x) (bs : List Nat) (s : State) (k : Nat) :
    (s.each bs fun b => State.modBench b f).bench k = if k ∈ bs then f (s.bench k) else s.bench k := by
  induction bs generalizing s with
  | nil => rfl
  | cons b bs ih =>
    have hstep : (s.each (b :: bs) fun b => State.modBench b f) = (s.modBench b f).each bs fun b => State.modBench b f := rfl
    rw [hstep, ih]
    by_cases hk : b = k
    · subst hk
      simp [hf]
    · simp [State.modBench_bench_other f s hk, Ne.symm hk]

/-! ## The slot map (R82, R84) -/

theorem State.slotWrite_eq (b : Nat) (hi : Bool) (v : Word) (s : State) :
    s.slotWrite b hi v = s.modTmg b fun t =>
      if s.slotCode b hi v = 0 then t.withSlots hi v
      else { t with err := true, errCode := s.slotCode b hi v, errAddr := if hi then 0x804 else 0x800 } := by
  unfold State.slotWrite
  by_cases h : s.slotCode b hi v = 0
  · simp only [h, if_true]
  · simp only [h, if_false]
    rfl

/-! ## The timing library window (R80, R84, R92) -/

@[simp] theorem State.highSince_libCode (n : Option Nat) (s : State) (b o : Nat) (v : Word) :
    (s.highSince n).libCode b o v = s.libCode b o v := rfl

/-- ADDR after an access: it moves on where INC is set, but not past the last word. -/
def Tmg.nextAddr (t : Tmg) : Nat := if t.inc && t.addr != 0x1FFF then t.addr + 1 else t.addr

theorem State.tmgStep_bench {s : State} {b : Nat} (hpast : (s.bench b).tmg.past = false) :
    ∃ p, (s.tmgStep b).bench b = { s.bench b with tmg := { (s.bench b).tmg with
      addr := (s.bench b).tmg.nextAddr, past := p } } := by
  rw [State.tmgStep, State.modTmg, State.modBench_bench, Tmg.nextAddr]
  by_cases hinc : (s.bench b).tmg.inc = true
  · by_cases hlast : (s.bench b).tmg.addr = 0x1FFF
    · exact ⟨true, by simp [hinc, hpast, hlast]⟩
    · exact ⟨false, by simp [hinc, hpast, hlast]⟩
  · refine ⟨(s.bench b).tmg.past, ?_⟩
    rw [if_pos (by simp [hinc]), if_neg (by simp [hinc])]

theorem State.tmgStep_bench_other {b k : Nat} (s : State) (h : k ≠ b) : (s.tmgStep b).bench k = s.bench k :=
  State.modBench_bench_other _ s h.symm

theorem State.tmgStep_benchesOnly (b : Nat) (s : State) : s.BenchesOnly (s.tmgStep b) := s.modBench_benchesOnly ..

theorem State.tmgStep_lib {s : State} {b : Nat} (hpast : (s.bench b).tmg.past = false) (k : Nat) :
    ((s.tmgStep b).bench k).tmg.lib = (s.bench k).tmg.lib := by
  by_cases h : k = b
  · subst h
    obtain ⟨p, hbench⟩ := State.tmgStep_bench hpast
    rw [hbench]
  · rw [State.tmgStep_bench_other s h]

/-- A bench with a library word replaced, its reserved bits 0. -/
def Bench.withLibWord (o : Nat) (v : Word) (x : Bench) : Bench :=
  { x with tmg := { x.tmg with lib := tput x.tmg.lib o (v &&& libMask o) } }

/-- A library word is stored in every bench of the list, in no other. -/
theorem State.each_libStore_bench (bs : List Nat) (o : Nat) (v : Word) (s : State) (k : Nat) :
    (s.each bs fun b => State.libStore b o v).bench k = if k ∈ bs then (s.bench k).withLibWord o v else s.bench k :=
  State.each_modBench_bench (f := Bench.withLibWord o v) (fun x => by simp [Bench.withLibWord, tput_tput]) bs s k

theorem State.each_libStore_not_past (s : State) {b : Nat} (bs : List Nat) (o : Nat) (v : Word)
    (h : (s.bench b).tmg.past = false) :
    ((s.each bs fun x => State.libStore x o v).bench b).tmg.past = false := by
  rw [State.each_libStore_bench]
  split <;> exact h

/-! ### An access at offset o, not past the window's end -/

section
variable {s : State} {b o : Nat} (hoff : (s.bench b).tmg.off = o) (hend : o ≠ 0x8000)
include hoff hend

theorem State.tmg_not_past : (s.bench b).tmg.past = false := by
  cases h : (s.bench b).tmg.past with
  | false => rfl
  | true => simp [← hoff, Tmg.off, h] at hend

theorem State.tmgRead_libWord (h : libWord o = true) : s.tmgRead b = (tget 0 (s.bench b).tmg.lib o, s.tmgStep b) := by
  simp [State.tmgRead, hoff, hend, h]

theorem State.tmgWrite_accepted {v : Word} (h : s.libCode b o v = 0) :
    s.tmgWrite b v = (s.each (s.libBenches b o) fun x => State.libStore x o v).tmgStep b := by
  simp [State.tmgWrite, hoff, hend, h]

theorem State.tmgWrite_refused {v : Word} (h : s.libCode b o v ≠ 0) :
    s.tmgWrite b v = (s.tmgErr b (s.libCode b o v) o).tmgStep b := by
  simp [State.tmgWrite, hoff, hend, h]

/-- Whatever a write does, it changes benches alone. -/
theorem State.tmgWrite_benchesOnly (v : Word) : s.BenchesOnly (s.tmgWrite b v) := by
  by_cases h : s.libCode b o v = 0
  · rw [State.tmgWrite_accepted hoff hend h]
    exact (State.each_benchesOnly (fun x t => t.modBench_benchesOnly ..) ..).trans (State.tmgStep_benchesOnly ..)
  · rw [State.tmgWrite_refused hoff hend h]
    exact (s.modBench_benchesOnly ..).trans (State.tmgStep_benchesOnly ..)

/-- An accepted write stores its word in the benches that it reaches and nowhere else. -/
theorem State.tmgWrite_lib {v : Word} (h : s.libCode b o v = 0) (k i : Nat) :
    tget 0 ((s.tmgWrite b v).bench k).tmg.lib i =
      if k ∈ s.libBenches b o ∧ o = i then v &&& libMask o else tget 0 (s.bench k).tmg.lib i := by
  have hpast := s.each_libStore_not_past (s.libBenches b o) o v (State.tmg_not_past hoff hend)
  rw [State.tmgWrite_accepted hoff hend h, State.tmgStep_lib hpast, State.each_libStore_bench]
  by_cases hk : k ∈ s.libBenches b o <;> simp [hk, Bench.withLibWord, tget_tput]

theorem State.tmgWrite_addr {v : Word} (h : s.libCode b o v = 0) :
    ((s.tmgWrite b v).bench b).tmg.addr = (s.bench b).tmg.nextAddr := by
  obtain ⟨p, hbench⟩ :=
    State.tmgStep_bench (s.each_libStore_not_past (s.libBenches b o) o v (State.tmg_not_past hoff hend))
  rw [State.tmgWrite_accepted hoff hend h, hbench, State.each_libStore_bench]
  split <;> rfl

/-- A refused write records its code and its offset, and else moves the window alone. -/
theorem State.tmgWrite_refused_bench {v : Word} (h : s.libCode b o v ≠ 0) :
    ∃ p, (s.tmgWrite b v).bench b = { s.bench b with tmg := { (s.bench b).tmg with
      addr := (s.bench b).tmg.nextAddr, past := p, err := true, errCode := s.libCode b o v, errAddr := o } } := by
  have herr : (s.tmgErr b (s.libCode b o v) o).bench b = { s.bench b with tmg := { (s.bench b).tmg with
      err := true, errCode := s.libCode b o v, errAddr := o } } := State.modBench_bench ..
  have hpast : ((s.tmgErr b (s.libCode b o v) o).bench b).tmg.past = false := by
    rw [herr]
    exact State.tmg_not_past hoff hend
  obtain ⟨p, hbench⟩ := State.tmgStep_bench hpast
  rw [State.tmgWrite_refused hoff hend h, hbench, herr]
  exact ⟨p, rfl⟩

theorem State.tmgWrite_refused_bench_other {v : Word} (h : s.libCode b o v ≠ 0) {k : Nat} (hk : k ≠ b) :
    (s.tmgWrite b v).bench k = s.bench k := by
  rw [State.tmgWrite_refused hoff hend h, State.tmgStep_bench_other _ hk]
  exact State.modBench_bench_other _ s hk.symm

end

/-! ### The commands -/

theorem exec_benchTmgSlotWrite {s : State} {w : Who} {b : BenchIx} {hi : Bool}
    (h : s.takesWrite w (benchAt b (if hi then 0x804 else 0x800)) = true) (v : Word) :
    exec (.benchTmgSlotWrite w b hi v) s = .next (s.judged (State.slotWrite b hi v)) := by
  cases hi with
  | false => exact congrArg _ (State.busWrite_benchAt (by decide) h v)
  | true => exact congrArg _ (State.busWrite_benchAt (by decide) h v)

theorem exec_benchTmgDataWrite {s : State} {w : Who} {b : BenchIx} (h : s.takesWrite w (benchAt b 0x814) = true) (v : Word) :
    exec (.benchTmgDataWrite w b v) s = .next (s.judged (State.tmgWrite b v)) :=
  congrArg _ (State.busWrite_benchAt (by decide) h v)

theorem State.regRead_tmgData (w : Who) (b : BenchIx) (s : State) :
    s.regRead w (benchAt b 0x814) = (some (s.tmgRead b).1, (s.tmgRead b).2) := by
  have ho : 0x814 < 0x1000 := by decide
  obtain ⟨hlo, hhi⟩ := benchAt_bounds b ho
  have h4 : benchAt b 0x814 % 4 = 0 := by simp only [benchAt]; omega
  have hwin : ¬ winBase ≤ benchAt b 0x814 := by simp only [winBase]; omega
  have hlow {n : Nat} (hn : n < 0x100000) : ¬ benchAt b 0x814 < n := by omega
  have hne : benchAt b 0x814 ≠ 0x7074 := by omega
  simp [State.regRead, h4, hwin, hlow, hne, hlo, hhi, benchAt_bench b ho, benchAt_offset b ho]

theorem pairLo_tmgData (b : BenchIx) : pairLo (benchAt b 0x814) = false := by
  have ho : 0x814 < 0x1000 := by decide
  simp [pairLo, benchAt_bounds b ho, benchAt_offset b ho, ix]

theorem exec_benchTmgDataRead {s : State} {w : Who} {b : BenchIx} (h : Claims.readsNow s w (benchAt b 0x814) = true) :
    exec (.benchTmgDataRead w b) s =
      .next ((s.tmgRead b).2.modReader (whoIx w) fun r => { r with data := (s.tmgRead b).1 }) := by
  have htime : benchAt b 0x814 ≠ 0x4000 := by simp only [benchAt]; omega
  exact congrArg _ (State.busRead_of_readsNow h htime (pairLo_tmgData b) (State.regRead_tmgData w b s))

end Sys2Proof.Machine

namespace Sys2Proof

open Machine

/-- Settles O20: a write is judged before and after (`judged_highSince`), and in between it is one change of the slot map
(`slotWrite_eq`), or a library write that its check accepts or refuses. -/
theorem timingSubBlockAccesses : Obligations.TimingSubBlockAccesses := by
  intro s w b v
  refine ⟨fun hi h => ?slot, fun hpast haddr => ?window⟩
  case slot =>
    rw [exec_benchTmgSlotWrite h]
    obtain ⟨m, n, hjudged⟩ := s.judged_highSince (State.slotWrite b hi v)
    refine ⟨_, rfl, ?_⟩
    rw [hjudged, State.slotWrite_eq]
    rfl
  case window =>
    have hoff : (s.bench b).tmg.off = 4 * (s.bench b).tmg.addr := by simp [Tmg.off, hpast]
    have hend : 4 * (s.bench b).tmg.addr ≠ 0x8000 := by omega
    obtain ⟨m, n, hjudged⟩ := s.judged_highSince (State.tmgWrite b v)
    have hoffm : ((s.highSince m).bench b).tmg.off = 4 * (s.bench b).tmg.addr := hoff
    have hbenches := State.tmgWrite_benchesOnly hoffm hend v
    refine ⟨fun h hcode => ?accepted, fun h hcode => ?refused, fun h hword => ?read⟩
    case accepted =>
      rw [← s.highSince_libCode m] at hcode
      have hlib := State.tmgWrite_lib hoffm hend hcode
      rw [exec_benchTmgDataWrite h, hjudged]
      refine ⟨_, rfl, hbenches.upToAgreement, ?_⟩
      simp only [State.highSince_bench]
      refine ⟨State.tmgWrite_addr hoffm hend hcode, fun k hk => (hlib k _).trans (if_pos ⟨hk, rfl⟩),
        fun k i hki => (hlib k i).trans (if_neg ?_)⟩
      rintro ⟨hk, rfl⟩
      exact hki.elim (· hk) (· rfl)
    case refused =>
      rw [← s.highSince_libCode m] at hcode
      obtain ⟨p, hbench⟩ := State.tmgWrite_refused_bench hoffm hend hcode
      rw [State.highSince_libCode, State.highSince_bench] at hbench
      rw [exec_benchTmgDataWrite h, hjudged]
      refine ⟨_, rfl, ⟨hbenches.upToAgreement, fun k hk => ?_⟩, ?_⟩
      · rw [State.highSince_bench, State.tmgWrite_refused_bench_other hoffm hend hcode hk, State.highSince_bench]
      · rw [State.highSince_bench, hbench]
        exact ⟨rfl, rfl, rfl, rfl, rfl⟩
    case read =>
      obtain ⟨p, hbench⟩ := State.tmgStep_bench hpast
      rw [exec_benchTmgDataRead h, State.tmgRead_libWord hoff hend hword]
      exact ⟨_, rfl, congrArg (fun x => x.tmg.addr) hbench, congrArg Reader.data (State.modReader_reader ..)⟩

end Sys2Proof
